-- ==== Sys2Proof/Word.lean ====
section
/-! DEFINITION. The word types of the AVR-0856H core and the small closed sets of names its rules use:
register numbers, SREG flags, pointer registers and the ways a pointer is used. -/

namespace Sys2Proof

/-- 8 bits: a general register, a byte of the data space or of program memory (R20, R60). -/
abbrev Byte := BitVec 8

/-- 16 bits: a program word, a pointer, an instruction word (R21, R42, R90). -/
abbrev Word := BitVec 16

/-- A word address of program memory: the program counter at its widest (R23). -/
abbrev PAddr := BitVec 22

/-- The number of a general register, R0 to R31 (R20). -/
abbrev Reg := Fin 32

/-- The eight bits of SREG (R25). -/
inductive Flag where
  | c | z | n | v | s | h | t | i
deriving DecidableEq, Repr

/-- The bit of SREG a flag stands at: I T H S V N Z C are bits 7 to 0 (R25). -/
def Flag.bit : Flag → Nat
  | .c => 0 | .z => 1 | .n => 2 | .v => 3 | .s => 4 | .h => 5 | .t => 6 | .i => 7

/-- The pointer registers X, Y and Z (R21). -/
inductive Ptr where
  | x | y | z
deriving DecidableEq, Repr

/-- How a load or store uses its pointer: as it stands, incremented after the access, decremented before it
(R220). The displacement forms are not among them: they never update the pointer. -/
inductive PtrUse where
  | plain | postInc | preDec
deriving DecidableEq, Repr

end Sys2Proof
end

