-- ==== Sys2Proof/Syntax.lean ====
section
/-! DEFINITION. The instructions of AVR-0856H: one constructor per row of spec/opcode_table.json, in the table's
order. The 45 rows that are another name of a core instruction's words (R114) have constructors of their own;
`Instr.parent` gives the core instruction each stands for. -/

namespace Sys2Proof

/-- An instruction with its operands. Registers are register numbers as written (`r16` is 16), whatever bits of
them the encoding holds; constants, offsets and addresses have the width of their encoding field (R111). -/
inductive Instr where
  -- Arithmetic and logic (R130 to R158)
  /-- R130 `ADD Rd,Rr`. -/
  | add (d : Reg) (r : Reg)
  /-- R131 `ADC Rd,Rr`. -/
  | adc (d : Reg) (r : Reg)
  /-- R132 `ADIW Rd+1:Rd,K`. -/
  | adiw (d : Reg) (k : BitVec 6)
  /-- R133 `SUB Rd,Rr`. -/
  | sub (d : Reg) (r : Reg)
  /-- R134 `SUBI Rd,K`. -/
  | subi (d : Reg) (k : Byte)
  /-- R135 `SBC Rd,Rr`. -/
  | sbc (d : Reg) (r : Reg)
  /-- R136 `SBCI Rd,K`. -/
  | sbci (d : Reg) (k : Byte)
  /-- R137 `SBIW Rd+1:Rd,K`. -/
  | sbiw (d : Reg) (k : BitVec 6)
  /-- R138 `AND Rd,Rr`. -/
  | and (d : Reg) (r : Reg)
  /-- R139 `ANDI Rd,K`. -/
  | andi (d : Reg) (k : Byte)
  /-- R140 `OR Rd,Rr`. -/
  | or (d : Reg) (r : Reg)
  /-- R141 `ORI Rd,K`. -/
  | ori (d : Reg) (k : Byte)
  /-- R142 `EOR Rd,Rr`. -/
  | eor (d : Reg) (r : Reg)
  /-- R143 `COM Rd`. -/
  | com (d : Reg)
  /-- R144 `NEG Rd`. -/
  | neg (d : Reg)
  /-- R145 `SBR Rd,K`. Another name of a core instruction's word. -/
  | sbr (d : Reg) (k : Byte)
  /-- R146 `CBR Rd,K`. Another name of a core instruction's word. -/
  | cbr (d : Reg) (k : Byte)
  /-- R147 `INC Rd`. -/
  | inc (d : Reg)
  /-- R148 `DEC Rd`. -/
  | dec (d : Reg)
  /-- R149 `TST Rd`. Another name of a core instruction's word. -/
  | tst (d : Reg)
  /-- R150 `CLR Rd`. Another name of a core instruction's word. -/
  | clr (d : Reg)
  /-- R151 `SER Rd`. Another name of a core instruction's word. -/
  | ser (d : Reg)
  /-- R152 `MUL Rd,Rr`. -/
  | mul (d : Reg) (r : Reg)
  /-- R153 `MULS Rd,Rr`. -/
  | muls (d : Reg) (r : Reg)
  /-- R154 `MULSU Rd,Rr`. -/
  | mulsu (d : Reg) (r : Reg)
  /-- R155 `FMUL Rd,Rr`. -/
  | fmul (d : Reg) (r : Reg)
  /-- R156 `FMULS Rd,Rr`. -/
  | fmuls (d : Reg) (r : Reg)
  /-- R157 `FMULSU Rd,Rr`. -/
  | fmulsu (d : Reg) (r : Reg)
  /-- R158 `DES K`. -/
  | des (k : BitVec 4)
  -- Jumps, calls, compares, skips, branches (R174 to R211)
  /-- R174 `RJMP k`. -/
  | rjmp (k : BitVec 12)
  /-- R175 `IJMP`. -/
  | ijmp
  /-- R176 `EIJMP`. -/
  | eijmp
  /-- R177 `JMP k`. -/
  | jmp (k : PAddr)
  /-- R178 `RCALL k`. -/
  | rcall (k : BitVec 12)
  /-- R179 `ICALL`. -/
  | icall
  /-- R180 `EICALL`. -/
  | eicall
  /-- R181 `CALL k`. -/
  | call (k : PAddr)
  /-- R182 `RET`. -/
  | ret
  /-- R183 `RETI`. -/
  | reti
  /-- R184 `CPSE Rd,Rr`. -/
  | cpse (d : Reg) (r : Reg)
  /-- R185 `CP Rd,Rr`. -/
  | cp (d : Reg) (r : Reg)
  /-- R186 `CPC Rd,Rr`. -/
  | cpc (d : Reg) (r : Reg)
  /-- R187 `CPI Rd,K`. -/
  | cpi (d : Reg) (k : Byte)
  /-- R188 `SBRC Rr,b`. -/
  | sbrc (r : Reg) (b : BitVec 3)
  /-- R189 `SBRS Rr,b`. -/
  | sbrs (r : Reg) (b : BitVec 3)
  /-- R190 `SBIC A,b`. -/
  | sbic (a : BitVec 5) (b : BitVec 3)
  /-- R191 `SBIS A,b`. -/
  | sbis (a : BitVec 5) (b : BitVec 3)
  /-- R192 `BRBS s,k`. -/
  | brbs (s : BitVec 3) (k : BitVec 7)
  /-- R193 `BRBC s,k`. -/
  | brbc (s : BitVec 3) (k : BitVec 7)
  /-- R194 `BREQ k`. Another name of a core instruction's word. -/
  | breq (k : BitVec 7)
  /-- R195 `BRNE k`. Another name of a core instruction's word. -/
  | brne (k : BitVec 7)
  /-- R196 `BRCS k`. Another name of a core instruction's word. -/
  | brcs (k : BitVec 7)
  /-- R197 `BRCC k`. Another name of a core instruction's word. -/
  | brcc (k : BitVec 7)
  /-- R198 `BRSH k`. Another name of a core instruction's word. -/
  | brsh (k : BitVec 7)
  /-- R199 `BRLO k`. Another name of a core instruction's word. -/
  | brlo (k : BitVec 7)
  /-- R200 `BRMI k`. Another name of a core instruction's word. -/
  | brmi (k : BitVec 7)
  /-- R201 `BRPL k`. Another name of a core instruction's word. -/
  | brpl (k : BitVec 7)
  /-- R202 `BRGE k`. Another name of a core instruction's word. -/
  | brge (k : BitVec 7)
  /-- R203 `BRLT k`. Another name of a core instruction's word. -/
  | brlt (k : BitVec 7)
  /-- R204 `BRHS k`. Another name of a core instruction's word. -/
  | brhs (k : BitVec 7)
  /-- R205 `BRHC k`. Another name of a core instruction's word. -/
  | brhc (k : BitVec 7)
  /-- R206 `BRTS k`. Another name of a core instruction's word. -/
  | brts (k : BitVec 7)
  /-- R207 `BRTC k`. Another name of a core instruction's word. -/
  | brtc (k : BitVec 7)
  /-- R208 `BRVS k`. Another name of a core instruction's word. -/
  | brvs (k : BitVec 7)
  /-- R209 `BRVC k`. Another name of a core instruction's word. -/
  | brvc (k : BitVec 7)
  /-- R210 `BRIE k`. Another name of a core instruction's word. -/
  | brie (k : BitVec 7)
  /-- R211 `BRID k`. Another name of a core instruction's word. -/
  | brid (k : BitVec 7)
  -- Data transfer (R222 to R260)
  /-- R222 `MOV Rd,Rr`. -/
  | mov (d : Reg) (r : Reg)
  /-- R223 `MOVW Rd+1:Rd,Rr+1:Rr`. -/
  | movw (d : Reg) (r : Reg)
  /-- R224 `LDI Rd,K`. -/
  | ldi (d : Reg) (k : Byte)
  /-- R225 `LDS Rd,k`. -/
  | lds (d : Reg) (k : Word)
  /-- R226 `LD Rd,X`. -/
  | ldX (d : Reg)
  /-- R227 `LD Rd,X+`. -/
  | ldXInc (d : Reg)
  /-- R228 `LD Rd,-X`. -/
  | ldXDec (d : Reg)
  /-- R229 `LD Rd,Y`. Another name of a core instruction's word. -/
  | ldY (d : Reg)
  /-- R230 `LD Rd,Y+`. -/
  | ldYInc (d : Reg)
  /-- R231 `LD Rd,-Y`. -/
  | ldYDec (d : Reg)
  /-- R232 `LDD Rd,Y+q`. -/
  | lddY (d : Reg) (q : BitVec 6)
  /-- R233 `LD Rd,Z`. Another name of a core instruction's word. -/
  | ldZ (d : Reg)
  /-- R234 `LD Rd,Z+`. -/
  | ldZInc (d : Reg)
  /-- R235 `LD Rd,-Z`. -/
  | ldZDec (d : Reg)
  /-- R236 `LDD Rd,Z+q`. -/
  | lddZ (d : Reg) (q : BitVec 6)
  /-- R237 `STS k,Rr`. -/
  | sts (k : Word) (r : Reg)
  /-- R238 `ST X,Rr`. -/
  | stX (r : Reg)
  /-- R239 `ST X+,Rr`. -/
  | stXInc (r : Reg)
  /-- R240 `ST -X,Rr`. -/
  | stXDec (r : Reg)
  /-- R241 `ST Y,Rr`. Another name of a core instruction's word. -/
  | stY (r : Reg)
  /-- R242 `ST Y+,Rr`. -/
  | stYInc (r : Reg)
  /-- R243 `ST -Y,Rr`. -/
  | stYDec (r : Reg)
  /-- R244 `STD Y+q,Rr`. -/
  | stdY (q : BitVec 6) (r : Reg)
  /-- R245 `ST Z,Rr`. Another name of a core instruction's word. -/
  | stZ (r : Reg)
  /-- R246 `ST Z+,Rr`. -/
  | stZInc (r : Reg)
  /-- R247 `ST -Z,Rr`. -/
  | stZDec (r : Reg)
  /-- R248 `STD Z+q,Rr`. -/
  | stdZ (q : BitVec 6) (r : Reg)
  /-- R249 `LPM`. -/
  | lpmR0
  /-- R250 `LPM Rd,Z`. -/
  | lpmZ (d : Reg)
  /-- R251 `LPM Rd,Z+`. -/
  | lpmZInc (d : Reg)
  /-- R252 `ELPM`. -/
  | elpmR0
  /-- R253 `ELPM Rd,Z`. -/
  | elpmZ (d : Reg)
  /-- R254 `ELPM Rd,Z+`. -/
  | elpmZInc (d : Reg)
  /-- R255 `SPM`. -/
  | spm
  /-- R256 `SPM Z+`. -/
  | spmZInc
  /-- R257 `IN Rd,A`. -/
  | in_ (d : Reg) (a : BitVec 6)
  /-- R258 `OUT A,Rr`. -/
  | out (a : BitVec 6) (r : Reg)
  /-- R259 `PUSH Rr`. -/
  | push (r : Reg)
  /-- R260 `POP Rd`. -/
  | pop (d : Reg)
  -- Bit and bit-test (R271 to R298)
  /-- R271 `LSL Rd`. Another name of a core instruction's word. -/
  | lsl (d : Reg)
  /-- R272 `LSR Rd`. -/
  | lsr (d : Reg)
  /-- R273 `ROL Rd`. Another name of a core instruction's word. -/
  | rol (d : Reg)
  /-- R274 `ROR Rd`. -/
  | ror (d : Reg)
  /-- R275 `ASR Rd`. -/
  | asr (d : Reg)
  /-- R276 `SWAP Rd`. -/
  | swap (d : Reg)
  /-- R277 `BSET s`. -/
  | bset (s : BitVec 3)
  /-- R278 `BCLR s`. -/
  | bclr (s : BitVec 3)
  /-- R279 `SBI A,b`. -/
  | sbi (a : BitVec 5) (b : BitVec 3)
  /-- R280 `CBI A,b`. -/
  | cbi (a : BitVec 5) (b : BitVec 3)
  /-- R281 `BST Rr,b`. -/
  | bst (r : Reg) (b : BitVec 3)
  /-- R282 `BLD Rd,b`. -/
  | bld (d : Reg) (b : BitVec 3)
  /-- R283 `SEC`. Another name of a core instruction's word. -/
  | sec
  /-- R284 `CLC`. Another name of a core instruction's word. -/
  | clc
  /-- R285 `SEN`. Another name of a core instruction's word. -/
  | sen
  /-- R286 `CLN`. Another name of a core instruction's word. -/
  | cln
  /-- R287 `SEZ`. Another name of a core instruction's word. -/
  | sez
  /-- R288 `CLZ`. Another name of a core instruction's word. -/
  | clz
  /-- R289 `SEI`. Another name of a core instruction's word. -/
  | sei
  /-- R290 `CLI`. Another name of a core instruction's word. -/
  | cli
  /-- R291 `SES`. Another name of a core instruction's word. -/
  | ses
  /-- R292 `CLS`. Another name of a core instruction's word. -/
  | cls
  /-- R293 `SEV`. Another name of a core instruction's word. -/
  | sev
  /-- R294 `CLV`. Another name of a core instruction's word. -/
  | clv
  /-- R295 `SET`. Another name of a core instruction's word. -/
  | set
  /-- R296 `CLT`. Another name of a core instruction's word. -/
  | clt
  /-- R297 `SEH`. Another name of a core instruction's word. -/
  | seh
  /-- R298 `CLH`. Another name of a core instruction's word. -/
  | clh
  -- MCU control (R310 to R313)
  /-- R310 `BREAK`. -/
  | brk
  /-- R311 `NOP`. -/
  | nop
  /-- R312 `SLEEP`. -/
  | sleep
  /-- R313 `WDR`. -/
  | wdr
deriving DecidableEq, Repr

/-- The core instruction whose word an instruction has: itself, or for the 45 other names of R114 the instruction
in that rule's table. -/
def Instr.parent : Instr → Instr
  | .add d r => .add d r
  | .adc d r => .adc d r
  | .adiw d k => .adiw d k
  | .sub d r => .sub d r
  | .subi d k => .subi d k
  | .sbc d r => .sbc d r
  | .sbci d k => .sbci d k
  | .sbiw d k => .sbiw d k
  | .and d r => .and d r
  | .andi d k => .andi d k
  | .or d r => .or d r
  | .ori d k => .ori d k
  | .eor d r => .eor d r
  | .com d => .com d
  | .neg d => .neg d
  | .sbr d k => .ori d k
  | .cbr d k => .andi d (0xFF - k)
  | .inc d => .inc d
  | .dec d => .dec d
  | .tst d => .and d d
  | .clr d => .eor d d
  | .ser d => .ldi d 0xFF
  | .mul d r => .mul d r
  | .muls d r => .muls d r
  | .mulsu d r => .mulsu d r
  | .fmul d r => .fmul d r
  | .fmuls d r => .fmuls d r
  | .fmulsu d r => .fmulsu d r
  | .des k => .des k
  | .rjmp k => .rjmp k
  | .ijmp => .ijmp
  | .eijmp => .eijmp
  | .jmp k => .jmp k
  | .rcall k => .rcall k
  | .icall => .icall
  | .eicall => .eicall
  | .call k => .call k
  | .ret => .ret
  | .reti => .reti
  | .cpse d r => .cpse d r
  | .cp d r => .cp d r
  | .cpc d r => .cpc d r
  | .cpi d k => .cpi d k
  | .sbrc r b => .sbrc r b
  | .sbrs r b => .sbrs r b
  | .sbic a b => .sbic a b
  | .sbis a b => .sbis a b
  | .brbs s k => .brbs s k
  | .brbc s k => .brbc s k
  | .breq k => .brbs 1 k
  | .brne k => .brbc 1 k
  | .brcs k => .brbs 0 k
  | .brcc k => .brbc 0 k
  | .brsh k => .brbc 0 k
  | .brlo k => .brbs 0 k
  | .brmi k => .brbs 2 k
  | .brpl k => .brbc 2 k
  | .brge k => .brbc 4 k
  | .brlt k => .brbs 4 k
  | .brhs k => .brbs 5 k
  | .brhc k => .brbc 5 k
  | .brts k => .brbs 6 k
  | .brtc k => .brbc 6 k
  | .brvs k => .brbs 3 k
  | .brvc k => .brbc 3 k
  | .brie k => .brbs 7 k
  | .brid k => .brbc 7 k
  | .mov d r => .mov d r
  | .movw d r => .movw d r
  | .ldi d k => .ldi d k
  | .lds d k => .lds d k
  | .ldX d => .ldX d
  | .ldXInc d => .ldXInc d
  | .ldXDec d => .ldXDec d
  | .ldY d => .lddY d 0
  | .ldYInc d => .ldYInc d
  | .ldYDec d => .ldYDec d
  | .lddY d q => .lddY d q
  | .ldZ d => .lddZ d 0
  | .ldZInc d => .ldZInc d
  | .ldZDec d => .ldZDec d
  | .lddZ d q => .lddZ d q
  | .sts k r => .sts k r
  | .stX r => .stX r
  | .stXInc r => .stXInc r
  | .stXDec r => .stXDec r
  | .stY r => .stdY 0 r
  | .stYInc r => .stYInc r
  | .stYDec r => .stYDec r
  | .stdY q r => .stdY q r
  | .stZ r => .stdZ 0 r
  | .stZInc r => .stZInc r
  | .stZDec r => .stZDec r
  | .stdZ q r => .stdZ q r
  | .lpmR0 => .lpmR0
  | .lpmZ d => .lpmZ d
  | .lpmZInc d => .lpmZInc d
  | .elpmR0 => .elpmR0
  | .elpmZ d => .elpmZ d
  | .elpmZInc d => .elpmZInc d
  | .spm => .spm
  | .spmZInc => .spmZInc
  | .in_ d a => .in_ d a
  | .out a r => .out a r
  | .push r => .push r
  | .pop d => .pop d
  | .lsl d => .add d d
  | .lsr d => .lsr d
  | .rol d => .adc d d
  | .ror d => .ror d
  | .asr d => .asr d
  | .swap d => .swap d
  | .bset s => .bset s
  | .bclr s => .bclr s
  | .sbi a b => .sbi a b
  | .cbi a b => .cbi a b
  | .bst r b => .bst r b
  | .bld d b => .bld d b
  | .sec => .bset 0
  | .clc => .bclr 0
  | .sen => .bset 2
  | .cln => .bclr 2
  | .sez => .bset 1
  | .clz => .bclr 1
  | .sei => .bset 7
  | .cli => .bclr 7
  | .ses => .bset 4
  | .cls => .bclr 4
  | .sev => .bset 3
  | .clv => .bclr 3
  | .set => .bset 6
  | .clt => .bclr 6
  | .seh => .bset 5
  | .clh => .bclr 5
  | .brk => .brk
  | .nop => .nop
  | .sleep => .sleep
  | .wdr => .wdr

/-- How many program words the instruction takes: two for LDS, STS, JMP and CALL, else one (R90). -/
def Instr.words : Instr → Nat
  | .add _ _ => 1
  | .adc _ _ => 1
  | .adiw _ _ => 1
  | .sub _ _ => 1
  | .subi _ _ => 1
  | .sbc _ _ => 1
  | .sbci _ _ => 1
  | .sbiw _ _ => 1
  | .and _ _ => 1
  | .andi _ _ => 1
  | .or _ _ => 1
  | .ori _ _ => 1
  | .eor _ _ => 1
  | .com _ => 1
  | .neg _ => 1
  | .sbr _ _ => 1
  | .cbr _ _ => 1
  | .inc _ => 1
  | .dec _ => 1
  | .tst _ => 1
  | .clr _ => 1
  | .ser _ => 1
  | .mul _ _ => 1
  | .muls _ _ => 1
  | .mulsu _ _ => 1
  | .fmul _ _ => 1
  | .fmuls _ _ => 1
  | .fmulsu _ _ => 1
  | .des _ => 1
  | .rjmp _ => 1
  | .ijmp => 1
  | .eijmp => 1
  | .jmp _ => 2
  | .rcall _ => 1
  | .icall => 1
  | .eicall => 1
  | .call _ => 2
  | .ret => 1
  | .reti => 1
  | .cpse _ _ => 1
  | .cp _ _ => 1
  | .cpc _ _ => 1
  | .cpi _ _ => 1
  | .sbrc _ _ => 1
  | .sbrs _ _ => 1
  | .sbic _ _ => 1
  | .sbis _ _ => 1
  | .brbs _ _ => 1
  | .brbc _ _ => 1
  | .breq _ => 1
  | .brne _ => 1
  | .brcs _ => 1
  | .brcc _ => 1
  | .brsh _ => 1
  | .brlo _ => 1
  | .brmi _ => 1
  | .brpl _ => 1
  | .brge _ => 1
  | .brlt _ => 1
  | .brhs _ => 1
  | .brhc _ => 1
  | .brts _ => 1
  | .brtc _ => 1
  | .brvs _ => 1
  | .brvc _ => 1
  | .brie _ => 1
  | .brid _ => 1
  | .mov _ _ => 1
  | .movw _ _ => 1
  | .ldi _ _ => 1
  | .lds _ _ => 2
  | .ldX _ => 1
  | .ldXInc _ => 1
  | .ldXDec _ => 1
  | .ldY _ => 1
  | .ldYInc _ => 1
  | .ldYDec _ => 1
  | .lddY _ _ => 1
  | .ldZ _ => 1
  | .ldZInc _ => 1
  | .ldZDec _ => 1
  | .lddZ _ _ => 1
  | .sts _ _ => 2
  | .stX _ => 1
  | .stXInc _ => 1
  | .stXDec _ => 1
  | .stY _ => 1
  | .stYInc _ => 1
  | .stYDec _ => 1
  | .stdY _ _ => 1
  | .stZ _ => 1
  | .stZInc _ => 1
  | .stZDec _ => 1
  | .stdZ _ _ => 1
  | .lpmR0 => 1
  | .lpmZ _ => 1
  | .lpmZInc _ => 1
  | .elpmR0 => 1
  | .elpmZ _ => 1
  | .elpmZInc _ => 1
  | .spm => 1
  | .spmZInc => 1
  | .in_ _ _ => 1
  | .out _ _ => 1
  | .push _ => 1
  | .pop _ => 1
  | .lsl _ => 1
  | .lsr _ => 1
  | .rol _ => 1
  | .ror _ => 1
  | .asr _ => 1
  | .swap _ => 1
  | .bset _ => 1
  | .bclr _ => 1
  | .sbi _ _ => 1
  | .cbi _ _ => 1
  | .bst _ _ => 1
  | .bld _ _ => 1
  | .sec => 1
  | .clc => 1
  | .sen => 1
  | .cln => 1
  | .sez => 1
  | .clz => 1
  | .sei => 1
  | .cli => 1
  | .ses => 1
  | .cls => 1
  | .sev => 1
  | .clv => 1
  | .set => 1
  | .clt => 1
  | .seh => 1
  | .clh => 1
  | .brk => 1
  | .nop => 1
  | .sleep => 1
  | .wdr => 1

end Sys2Proof
end

