-- ==== Sys2Proof/WellFormed.lean ====
section
/-! DEFINITION. Which operands an instruction admits: the ranges of R22 and of each rule's Operands line. Field
widths already bound the constants; what is left is which registers an encoding can name. -/

namespace Sys2Proof

/-- R16 to R31, the upper registers (R22). -/
def upper (d : Reg) : Bool := 16 ≤ d.val

/-- R16 to R23 (R22: MULSU and the fractional multiplies). -/
def middle (d : Reg) : Bool := 16 ≤ d.val && d.val ≤ 23

/-- An even register, the low half of a pair (R22: MOVW). -/
def even (d : Reg) : Bool := d.val % 2 = 0

/-- R24, R26, R28 or R30 (R22: ADIW, SBIW). -/
def topPair (d : Reg) : Bool := 24 ≤ d.val && d.val % 2 = 0

/-- The number of the low register of a pointer pair: X=R27:R26, Y=R29:R28, Z=R31:R30 (R21). -/
def Ptr.lowNumber : Ptr → Nat
  | .x => 26 | .y => 28 | .z => 30

/-- The register is neither half of the pointer (R221: the forms that update their pointer). -/
def offPointer (p : Ptr) (d : Reg) : Bool := d.val ≠ p.lowNumber && d.val ≠ p.lowNumber + 1

/-- The operands are ones the instruction's rule admits. -/
def Instr.wf : Instr → Bool
  | .add _ _ => true
  | .adc _ _ => true
  | .adiw d _ => topPair d
  | .sub _ _ => true
  | .subi d _ => upper d
  | .sbc _ _ => true
  | .sbci d _ => upper d
  | .sbiw d _ => topPair d
  | .and _ _ => true
  | .andi d _ => upper d
  | .or _ _ => true
  | .ori d _ => upper d
  | .eor _ _ => true
  | .com _ => true
  | .neg _ => true
  | .sbr d _ => upper d
  | .cbr d _ => upper d
  | .inc _ => true
  | .dec _ => true
  | .tst _ => true
  | .clr _ => true
  | .ser d => upper d
  | .mul _ _ => true
  | .muls d r => upper d && upper r
  | .mulsu d r => middle d && middle r
  | .fmul d r => middle d && middle r
  | .fmuls d r => middle d && middle r
  | .fmulsu d r => middle d && middle r
  | .des _ => true
  | .rjmp _ => true
  | .ijmp => true
  | .eijmp => true
  | .jmp _ => true
  | .rcall _ => true
  | .icall => true
  | .eicall => true
  | .call _ => true
  | .ret => true
  | .reti => true
  | .cpse _ _ => true
  | .cp _ _ => true
  | .cpc _ _ => true
  | .cpi d _ => upper d
  | .sbrc _ _ => true
  | .sbrs _ _ => true
  | .sbic _ _ => true
  | .sbis _ _ => true
  | .brbs _ _ => true
  | .brbc _ _ => true
  | .breq _ => true
  | .brne _ => true
  | .brcs _ => true
  | .brcc _ => true
  | .brsh _ => true
  | .brlo _ => true
  | .brmi _ => true
  | .brpl _ => true
  | .brge _ => true
  | .brlt _ => true
  | .brhs _ => true
  | .brhc _ => true
  | .brts _ => true
  | .brtc _ => true
  | .brvs _ => true
  | .brvc _ => true
  | .brie _ => true
  | .brid _ => true
  | .mov _ _ => true
  | .movw d r => even d && even r
  | .ldi d _ => upper d
  | .lds _ _ => true
  | .ldX _ => true
  | .ldXInc d => offPointer .x d
  | .ldXDec d => offPointer .x d
  | .ldY _ => true
  | .ldYInc d => offPointer .y d
  | .ldYDec d => offPointer .y d
  | .lddY _ _ => true
  | .ldZ _ => true
  | .ldZInc d => offPointer .z d
  | .ldZDec d => offPointer .z d
  | .lddZ _ _ => true
  | .sts _ _ => true
  | .stX _ => true
  | .stXInc r => offPointer .x r
  | .stXDec r => offPointer .x r
  | .stY _ => true
  | .stYInc r => offPointer .y r
  | .stYDec r => offPointer .y r
  | .stdY _ _ => true
  | .stZ _ => true
  | .stZInc r => offPointer .z r
  | .stZDec r => offPointer .z r
  | .stdZ _ _ => true
  | .lpmR0 => true
  | .lpmZ _ => true
  | .lpmZInc d => offPointer .z d
  | .elpmR0 => true
  | .elpmZ _ => true
  | .elpmZInc d => offPointer .z d
  | .spm => true
  | .spmZInc => true
  | .in_ _ _ => true
  | .out _ _ => true
  | .push _ => true
  | .pop _ => true
  | .lsl _ => true
  | .lsr _ => true
  | .rol _ => true
  | .ror _ => true
  | .asr _ => true
  | .swap _ => true
  | .bset _ => true
  | .bclr _ => true
  | .sbi _ _ => true
  | .cbi _ _ => true
  | .bst _ _ => true
  | .bld _ _ => true
  | .sec => true
  | .clc => true
  | .sen => true
  | .cln => true
  | .sez => true
  | .clz => true
  | .sei => true
  | .cli => true
  | .ses => true
  | .cls => true
  | .sev => true
  | .clv => true
  | .set => true
  | .clt => true
  | .seh => true
  | .clh => true
  | .brk => true
  | .nop => true
  | .sleep => true
  | .wdr => true

end Sys2Proof
end

