-- ==== Sys2Proof/Decode.lean ====
section
/-! DEFINITION. From program words to instructions (30_encoding.md R90 to R113), total and refusing by name, and
back. The decoder follows the decode map of R112, group by group; the encoder writes each format of R93 to R110
as the spec's string of letters has it. -/

namespace Sys2Proof

/-- Bits `lo + len - 1` down to `lo` of a word, as a number (R92). -/
def fld (w : Word) (lo len : Nat) : Nat := w.toNat / 2 ^ lo % 2 ^ len

/-- The register a field value names. -/
def regOf (n : Nat) : Reg := ⟨n % 32, Nat.mod_lt n (by decide)⟩

/-- The first word is that of a two-word instruction: LDS, STS, JMP, CALL (R91). It looks at the bit pattern
only. -/
def isTwoWord (w : Word) : Bool := w &&& 0xFC0F = 0x9000 || w &&& 0xFE0C = 0x940C

/-- `d` of the formats with five bits of it: bits 8:4 (R93, R95, R104, R106, R107, R108, R109). -/
def fieldD5 (w : Word) : Reg := regOf (fld w 4 5)

/-- `r` of format RdRr: bit 9 and bits 3:0 (R93). -/
def fieldR5 (w : Word) : Reg := regOf (fld w 9 1 * 16 + fld w 0 4)

/-- The register of format RdK8: 16 + bits 7:4 (R94). -/
def fieldUpper (w : Word) : Reg := regOf (16 + fld w 4 4)

/-- `K` of format RdK8: bits 11:8 and bits 3:0 (R94). -/
def fieldK8 (w : Word) : Byte := BitVec.ofNat 8 (fld w 8 4 * 16 + fld w 0 4)

/-- The register of format RdpK6: 24 + 2 times bits 5:4 (R96). -/
def fieldPair (w : Word) : Reg := regOf (24 + 2 * fld w 4 2)

/-- `K` of format RdpK6: bits 7:6 and bits 3:0 (R96). -/
def fieldK6 (w : Word) : BitVec 6 := BitVec.ofNat 6 (fld w 6 2 * 16 + fld w 0 4)

/-- `q` of format LddStd: bit 13, bits 11:10, bits 2:0 (R108). -/
def fieldQ (w : Word) : BitVec 6 := BitVec.ofNat 6 (fld w 13 1 * 32 + fld w 10 2 * 8 + fld w 0 3)

/-- `k` of format k12: bits 11:0 (R100). -/
def fieldK12 (w : Word) : BitVec 12 := BitVec.ofNat 12 (fld w 0 12)

/-- `k` of format s3k7: bits 9:3 (R102). -/
def fieldK7 (w : Word) : BitVec 7 := BitVec.ofNat 7 (fld w 3 7)

/-- `k` of format k22: bits 8:4 and bit 0 of the first word, then the second word (R101). -/
def fieldK22 (w k : Word) : PAddr := BitVec.ofNat 22 ((fld w 4 5 * 2 + fld w 0 1) * 65536 + k.toNat)

/-- Bits 2:0: `s` of format s3k7, `b` of formats Rb and A5b (R102, R104, R105). -/
def fieldLow3 (w : Word) : BitVec 3 := BitVec.ofNat 3 (fld w 0 3)

/-- `s` of format s3: bits 6:4 (R103). -/
def fieldS3 (w : Word) : BitVec 3 := BitVec.ofNat 3 (fld w 4 3)

/-- `A` of format A5b: bits 7:3 (R105). -/
def fieldA5 (w : Word) : BitVec 5 := BitVec.ofNat 5 (fld w 3 5)

/-- `A` of format A6Rd: bits 10:9 and bits 3:0 (R106). -/
def fieldA6 (w : Word) : BitVec 6 := BitVec.ofNat 6 (fld w 9 2 * 16 + fld w 0 4)

/-- Words `0000 ...` (R112): NOP, MOVW, MULS, the group of R98, CPC, SBC, ADD. -/
def decode0 (w : Word) : Option Instr :=
  match fld w 10 2 with
  | 0 =>
    match fld w 8 2 with
    | 0 => if fld w 0 8 = 0 then some .nop else none
    | 1 => some (.movw (regOf (2 * fld w 4 4)) (regOf (2 * fld w 0 4)))
    | 2 => some (.muls (regOf (16 + fld w 4 4)) (regOf (16 + fld w 0 4)))
    | _ =>
      match fld w 7 1, fld w 3 1 with
      | 0, 0 => some (.mulsu (regOf (16 + fld w 4 3)) (regOf (16 + fld w 0 3)))
      | 0, _ => some (.fmul (regOf (16 + fld w 4 3)) (regOf (16 + fld w 0 3)))
      | _, 0 => some (.fmuls (regOf (16 + fld w 4 3)) (regOf (16 + fld w 0 3)))
      | _, _ => some (.fmulsu (regOf (16 + fld w 4 3)) (regOf (16 + fld w 0 3)))
  | 1 => some (.cpc (fieldD5 w) (fieldR5 w))
  | 2 => some (.sbc (fieldD5 w) (fieldR5 w))
  | _ => some (.add (fieldD5 w) (fieldR5 w))

/-- Words `0001 ...` (R112): CPSE, CP, SUB, ADC. -/
def decode1 (w : Word) : Option Instr :=
  match fld w 10 2 with
  | 0 => some (.cpse (fieldD5 w) (fieldR5 w))
  | 1 => some (.cp (fieldD5 w) (fieldR5 w))
  | 2 => some (.sub (fieldD5 w) (fieldR5 w))
  | _ => some (.adc (fieldD5 w) (fieldR5 w))

/-- Words `0010 ...` (R112): AND, EOR, OR, MOV. -/
def decode2 (w : Word) : Option Instr :=
  match fld w 10 2 with
  | 0 => some (.and (fieldD5 w) (fieldR5 w))
  | 1 => some (.eor (fieldD5 w) (fieldR5 w))
  | 2 => some (.or (fieldD5 w) (fieldR5 w))
  | _ => some (.mov (fieldD5 w) (fieldR5 w))

/-- Words `10q0 ...` (R108): LDD and STD with displacement. Displacement 0 is LD and ST through Y or Z. -/
def decodeDisp (w : Word) : Option Instr :=
  match fld w 9 1, fld w 3 1 with
  | 0, 0 => some (.lddZ (fieldD5 w) (fieldQ w))
  | 0, _ => some (.lddY (fieldD5 w) (fieldQ w))
  | _, 0 => some (.stdZ (fieldQ w) (fieldD5 w))
  | _, _ => some (.stdY (fieldQ w) (fieldD5 w))

/-- Words `1001 000d dddd mmmm`: the load group of R107. -/
def decodeLoad (w k : Word) : Option Instr :=
  match fld w 0 4 with
  | 0 => some (.lds (fieldD5 w) k)
  | 1 => some (.ldZInc (fieldD5 w))
  | 2 => some (.ldZDec (fieldD5 w))
  | 4 => some (.lpmZ (fieldD5 w))
  | 5 => some (.lpmZInc (fieldD5 w))
  | 6 => some (.elpmZ (fieldD5 w))
  | 7 => some (.elpmZInc (fieldD5 w))
  | 9 => some (.ldYInc (fieldD5 w))
  | 10 => some (.ldYDec (fieldD5 w))
  | 12 => some (.ldX (fieldD5 w))
  | 13 => some (.ldXInc (fieldD5 w))
  | 14 => some (.ldXDec (fieldD5 w))
  | 15 => some (.pop (fieldD5 w))
  | _ => none

/-- Words `1001 001r rrrr mmmm`: the store group of R107. -/
def decodeStore (w k : Word) : Option Instr :=
  match fld w 0 4 with
  | 0 => some (.sts k (fieldD5 w))
  | 1 => some (.stZInc (fieldD5 w))
  | 2 => some (.stZDec (fieldD5 w))
  | 9 => some (.stYInc (fieldD5 w))
  | 10 => some (.stYDec (fieldD5 w))
  | 12 => some (.stX (fieldD5 w))
  | 13 => some (.stXInc (fieldD5 w))
  | 14 => some (.stXDec (fieldD5 w))
  | 15 => some (.push (fieldD5 w))
  | _ => none

/-- Words `1001 0101 xxxx 1000`: the fixed words of R110. -/
def decodeFixed8 (w : Word) : Option Instr :=
  match fld w 4 4 with
  | 0 => some .ret
  | 1 => some .reti
  | 8 => some .sleep
  | 9 => some .brk
  | 10 => some .wdr
  | 12 => some .lpmR0
  | 13 => some .elpmR0
  | 14 => some .spm
  | 15 => some .spmZInc
  | _ => none

/-- Words `1001 010x xxxx 1001`: the indirect jumps and calls of R110. -/
def decodeFixed9 (w : Word) : Option Instr :=
  match fld w 4 5 with
  | 0 => some .ijmp
  | 1 => some .eijmp
  | 16 => some .icall
  | 17 => some .eicall
  | _ => none

/-- Words `1001 010x xxxx oooo` (R112): one register, SREG bits, fixed words, DES, JMP, CALL. -/
def decodeOne (w k : Word) : Option Instr :=
  match fld w 0 4 with
  | 0 => some (.com (fieldD5 w))
  | 1 => some (.neg (fieldD5 w))
  | 2 => some (.swap (fieldD5 w))
  | 3 => some (.inc (fieldD5 w))
  | 5 => some (.asr (fieldD5 w))
  | 6 => some (.lsr (fieldD5 w))
  | 7 => some (.ror (fieldD5 w))
  | 8 =>
    if fld w 8 1 = 0 then
      if fld w 7 1 = 0 then some (.bset (fieldS3 w)) else some (.bclr (fieldS3 w))
    else decodeFixed8 w
  | 9 => decodeFixed9 w
  | 10 => some (.dec (fieldD5 w))
  | 11 => if fld w 8 1 = 0 then some (.des (BitVec.ofNat 4 (fld w 4 4))) else none
  | 12 => some (.jmp (fieldK22 w k))
  | 13 => some (.jmp (fieldK22 w k))
  | 14 => some (.call (fieldK22 w k))
  | 15 => some (.call (fieldK22 w k))
  | _ => none

/-- Words `1001 ...` (R112). -/
def decode9 (w k : Word) : Option Instr :=
  match fld w 9 3 with
  | 0 => decodeLoad w k
  | 1 => decodeStore w k
  | 2 => decodeOne w k
  | 3 => if fld w 8 1 = 0 then some (.adiw (fieldPair w) (fieldK6 w)) else some (.sbiw (fieldPair w) (fieldK6 w))
  | 4 => if fld w 8 1 = 0 then some (.cbi (fieldA5 w) (fieldLow3 w)) else some (.sbic (fieldA5 w) (fieldLow3 w))
  | 5 => if fld w 8 1 = 0 then some (.sbi (fieldA5 w) (fieldLow3 w)) else some (.sbis (fieldA5 w) (fieldLow3 w))
  | _ => some (.mul (fieldD5 w) (fieldR5 w))

/-- Words `1111 ...` (R112): conditional branches; BLD, BST, SBRC, SBRS with bit 3 clear. -/
def decode15 (w : Word) : Option Instr :=
  match fld w 10 2 with
  | 0 => some (.brbs (fieldLow3 w) (fieldK7 w))
  | 1 => some (.brbc (fieldLow3 w) (fieldK7 w))
  | 2 =>
    if fld w 3 1 = 0 then
      if fld w 9 1 = 0 then some (.bld (fieldD5 w) (fieldLow3 w)) else some (.bst (fieldD5 w) (fieldLow3 w))
    else none
  | _ =>
    if fld w 3 1 = 0 then
      if fld w 9 1 = 0 then some (.sbrc (fieldD5 w) (fieldLow3 w)) else some (.sbrs (fieldD5 w) (fieldLow3 w))
    else none

/-- The instruction with first word `w` and, where it has one, second word `k` (R112); none for the 1,682
unassigned first words (R113). It answers core instructions only (R114). -/
def decodeWords (w k : Word) : Option Instr :=
  match fld w 12 4 with
  | 0 => decode0 w
  | 1 => decode1 w
  | 2 => decode2 w
  | 3 => some (.cpi (fieldUpper w) (fieldK8 w))
  | 4 => some (.sbci (fieldUpper w) (fieldK8 w))
  | 5 => some (.subi (fieldUpper w) (fieldK8 w))
  | 6 => some (.ori (fieldUpper w) (fieldK8 w))
  | 7 => some (.andi (fieldUpper w) (fieldK8 w))
  | 8 => decodeDisp w
  | 9 => decode9 w k
  | 10 => decodeDisp w
  | 11 => if fld w 11 1 = 0 then some (.in_ (fieldD5 w) (fieldA6 w)) else some (.out (fieldA6 w) (fieldD5 w))
  | 12 => some (.rjmp (fieldK12 w))
  | 13 => some (.rcall (fieldK12 w))
  | 14 => some (.ldi (fieldUpper w) (fieldK8 w))
  | _ => decode15 w

/-- Why bytes are no instruction. -/
inductive DecodeError where
  /-- fewer bytes than the instruction has -/
  | truncated
  /-- the first word is one of the unassigned words of R113 -/
  | unassigned (w : Word)
deriving DecidableEq, Repr

/-- The instruction at the front of a program image given as bytes, and the bytes after it. A word's low byte
comes first (R62), the operation-code word comes first (R63). -/
def decode : List Byte → Except DecodeError (Instr × List Byte)
  | b0 :: b1 :: rest =>
    if isTwoWord (b1 ++ b0) then
      match rest with
      | b2 :: b3 :: rest' =>
        match decodeWords (b1 ++ b0) (b3 ++ b2) with
        | some i => .ok (i, rest')
        | none => .error (.unassigned (b1 ++ b0))
      | _ => .error .truncated
    else
      match decodeWords (b1 ++ b0) 0 with
      | some i => .ok (i, rest)
      | none => .error (.unassigned (b1 ++ b0))
  | _ => .error .truncated

/-- Format RdRr: `oooo oord dddd rrrr` (R93). -/
def encRdRr (op : Nat) (d r : Reg) : Word :=
  BitVec.ofNat 16 (op * 1024 + r.val / 16 * 512 + d.val * 16 + r.val % 16)

/-- Format RdK8: `oooo KKKK dddd KKKK` (R94). -/
def encRdK8 (op : Nat) (d : Reg) (k : Byte) : Word :=
  BitVec.ofNat 16 (op * 4096 + k.toNat / 16 * 256 + (d.val - 16) * 16 + k.toNat % 16)

/-- Format Rd5: `1001 010d dddd oooo` (R95). -/
def encRd5 (op : Nat) (d : Reg) : Word := BitVec.ofNat 16 (0x9400 + d.val * 16 + op)

/-- Format RdpK6: `1001 011o KKdd KKKK` (R96). -/
def encRdpK6 (op : Nat) (d : Reg) (k : BitVec 6) : Word :=
  BitVec.ofNat 16 (0x9600 + op * 256 + k.toNat / 16 * 64 + (d.val - 24) / 2 * 16 + k.toNat % 16)

/-- Format Rd4Rr4: `0000 00oo dddd rrrr`, the two fields given (R97). -/
def encRd4Rr4 (op dField rField : Nat) : Word := BitVec.ofNat 16 (op * 256 + dField * 16 + rField)

/-- Format Rd3Rr3: `0000 0011 xddd yrrr` (R98). -/
def encRd3Rr3 (x y : Nat) (d r : Reg) : Word :=
  BitVec.ofNat 16 (0x0300 + x * 128 + (d.val - 16) * 16 + y * 8 + (r.val - 16))

/-- Format K4: `1001 0100 KKKK 1011` (R99). -/
def encK4 (k : BitVec 4) : Word := BitVec.ofNat 16 (0x940B + k.toNat * 16)

/-- Format k12: `110o kkkk kkkk kkkk` (R100). -/
def encK12 (op : Nat) (k : BitVec 12) : Word := BitVec.ofNat 16 (0xC000 + op * 4096 + k.toNat)

/-- First word of format k22: `1001 010k kkkk 11ok` (R101). -/
def encK22 (op : Nat) (k : PAddr) : Word :=
  BitVec.ofNat 16 (0x940C + k.toNat / 131072 * 16 + op * 2 + k.toNat / 65536 % 2)

/-- Second word of format k22: the low 16 bits of the address (R101). -/
def lowWord (k : PAddr) : Word := BitVec.ofNat 16 k.toNat

/-- Format s3k7: `1111 0okk kkkk ksss` (R102). -/
def encS3k7 (op : Nat) (s : BitVec 3) (k : BitVec 7) : Word :=
  BitVec.ofNat 16 (0xF000 + op * 1024 + k.toNat * 8 + s.toNat)

/-- Format s3: `1001 0100 osss 1000` (R103). -/
def encS3 (op : Nat) (s : BitVec 3) : Word := BitVec.ofNat 16 (0x9408 + op * 128 + s.toNat * 16)

/-- Format Rb: `1111 1oor rrrr 0bbb` (R104). -/
def encRb (op : Nat) (r : Reg) (b : BitVec 3) : Word :=
  BitVec.ofNat 16 (0xF800 + op * 512 + r.val * 16 + b.toNat)

/-- Format A5b: `1001 10oo AAAA Abbb` (R105). -/
def encA5b (op : Nat) (a : BitVec 5) (b : BitVec 3) : Word :=
  BitVec.ofNat 16 (0x9800 + op * 256 + a.toNat * 8 + b.toNat)

/-- Format A6Rd: `1011 oAAd dddd AAAA` (R106). -/
def encA6Rd (op : Nat) (r : Reg) (a : BitVec 6) : Word :=
  BitVec.ofNat 16 (0xB000 + op * 2048 + a.toNat / 16 * 512 + r.val * 16 + a.toNat % 16)

/-- Format LdSt, and the first word of format Rdk16: `1001 00sd dddd mmmm` (R107, R109). -/
def encLdSt (s : Nat) (r : Reg) (m : Nat) : Word := BitVec.ofNat 16 (0x9000 + s * 512 + r.val * 16 + m)

/-- Format LddStd: `10q0 qqsd dddd yqqq` (R108). -/
def encLddStd (s y : Nat) (r : Reg) (q : BitVec 6) : Word :=
  BitVec.ofNat 16
    (0x8000 + q.toNat / 32 * 8192 + q.toNat / 8 % 4 * 1024 + s * 512 + r.val * 16 + y * 8 + q.toNat % 8)

/-- The program words of a well-formed instruction, the operation-code word first (R63). The other names of R114
have the word of their core instruction. -/
def encode : Instr → List Word
  | .add d r => [encRdRr 0b000011 d r]
  | .adc d r => [encRdRr 0b000111 d r]
  | .adiw d k => [encRdpK6 0 d k]
  | .sub d r => [encRdRr 0b000110 d r]
  | .subi d k => [encRdK8 0b0101 d k]
  | .sbc d r => [encRdRr 0b000010 d r]
  | .sbci d k => [encRdK8 0b0100 d k]
  | .sbiw d k => [encRdpK6 1 d k]
  | .and d r => [encRdRr 0b001000 d r]
  | .andi d k => [encRdK8 0b0111 d k]
  | .or d r => [encRdRr 0b001010 d r]
  | .ori d k => [encRdK8 0b0110 d k]
  | .eor d r => [encRdRr 0b001001 d r]
  | .com d => [encRd5 0b0000 d]
  | .neg d => [encRd5 0b0001 d]
  | .sbr d k => [encRdK8 0b0110 d k]
  | .cbr d k => [encRdK8 0b0111 d (0xFF - k)]
  | .inc d => [encRd5 0b0011 d]
  | .dec d => [encRd5 0b1010 d]
  | .tst d => [encRdRr 0b001000 d d]
  | .clr d => [encRdRr 0b001001 d d]
  | .ser d => [encRdK8 0b1110 d 0xFF]
  | .mul d r => [encRdRr 0b100111 d r]
  | .muls d r => [encRd4Rr4 0b10 (d.val - 16) (r.val - 16)]
  | .mulsu d r => [encRd3Rr3 0 0 d r]
  | .fmul d r => [encRd3Rr3 0 1 d r]
  | .fmuls d r => [encRd3Rr3 1 0 d r]
  | .fmulsu d r => [encRd3Rr3 1 1 d r]
  | .des k => [encK4 k]
  | .rjmp k => [encK12 0 k]
  | .ijmp => [0x9409]
  | .eijmp => [0x9419]
  | .jmp k => [encK22 0 k, lowWord k]
  | .rcall k => [encK12 1 k]
  | .icall => [0x9509]
  | .eicall => [0x9519]
  | .call k => [encK22 1 k, lowWord k]
  | .ret => [0x9508]
  | .reti => [0x9518]
  | .cpse d r => [encRdRr 0b000100 d r]
  | .cp d r => [encRdRr 0b000101 d r]
  | .cpc d r => [encRdRr 0b000001 d r]
  | .cpi d k => [encRdK8 0b0011 d k]
  | .sbrc r b => [encRb 2 r b]
  | .sbrs r b => [encRb 3 r b]
  | .sbic a b => [encA5b 1 a b]
  | .sbis a b => [encA5b 3 a b]
  | .brbs s k => [encS3k7 0 s k]
  | .brbc s k => [encS3k7 1 s k]
  | .breq k => [encS3k7 0 1 k]
  | .brne k => [encS3k7 1 1 k]
  | .brcs k => [encS3k7 0 0 k]
  | .brcc k => [encS3k7 1 0 k]
  | .brsh k => [encS3k7 1 0 k]
  | .brlo k => [encS3k7 0 0 k]
  | .brmi k => [encS3k7 0 2 k]
  | .brpl k => [encS3k7 1 2 k]
  | .brge k => [encS3k7 1 4 k]
  | .brlt k => [encS3k7 0 4 k]
  | .brhs k => [encS3k7 0 5 k]
  | .brhc k => [encS3k7 1 5 k]
  | .brts k => [encS3k7 0 6 k]
  | .brtc k => [encS3k7 1 6 k]
  | .brvs k => [encS3k7 0 3 k]
  | .brvc k => [encS3k7 1 3 k]
  | .brie k => [encS3k7 0 7 k]
  | .brid k => [encS3k7 1 7 k]
  | .mov d r => [encRdRr 0b001011 d r]
  | .movw d r => [encRd4Rr4 0b01 (d.val / 2) (r.val / 2)]
  | .ldi d k => [encRdK8 0b1110 d k]
  | .lds d k => [encLdSt 0 d 0, k]
  | .ldX d => [encLdSt 0 d 12]
  | .ldXInc d => [encLdSt 0 d 13]
  | .ldXDec d => [encLdSt 0 d 14]
  | .ldY d => [encLddStd 0 1 d 0]
  | .ldYInc d => [encLdSt 0 d 9]
  | .ldYDec d => [encLdSt 0 d 10]
  | .lddY d q => [encLddStd 0 1 d q]
  | .ldZ d => [encLddStd 0 0 d 0]
  | .ldZInc d => [encLdSt 0 d 1]
  | .ldZDec d => [encLdSt 0 d 2]
  | .lddZ d q => [encLddStd 0 0 d q]
  | .sts k r => [encLdSt 1 r 0, k]
  | .stX r => [encLdSt 1 r 12]
  | .stXInc r => [encLdSt 1 r 13]
  | .stXDec r => [encLdSt 1 r 14]
  | .stY r => [encLddStd 1 1 r 0]
  | .stYInc r => [encLdSt 1 r 9]
  | .stYDec r => [encLdSt 1 r 10]
  | .stdY q r => [encLddStd 1 1 r q]
  | .stZ r => [encLddStd 1 0 r 0]
  | .stZInc r => [encLdSt 1 r 1]
  | .stZDec r => [encLdSt 1 r 2]
  | .stdZ q r => [encLddStd 1 0 r q]
  | .lpmR0 => [0x95C8]
  | .lpmZ d => [encLdSt 0 d 4]
  | .lpmZInc d => [encLdSt 0 d 5]
  | .elpmR0 => [0x95D8]
  | .elpmZ d => [encLdSt 0 d 6]
  | .elpmZInc d => [encLdSt 0 d 7]
  | .spm => [0x95E8]
  | .spmZInc => [0x95F8]
  | .in_ d a => [encA6Rd 0 d a]
  | .out a r => [encA6Rd 1 r a]
  | .push r => [encLdSt 1 r 15]
  | .pop d => [encLdSt 0 d 15]
  | .lsl d => [encRdRr 0b000011 d d]
  | .lsr d => [encRd5 0b0110 d]
  | .rol d => [encRdRr 0b000111 d d]
  | .ror d => [encRd5 0b0111 d]
  | .asr d => [encRd5 0b0101 d]
  | .swap d => [encRd5 0b0010 d]
  | .bset s => [encS3 0 s]
  | .bclr s => [encS3 1 s]
  | .sbi a b => [encA5b 2 a b]
  | .cbi a b => [encA5b 0 a b]
  | .bst r b => [encRb 1 r b]
  | .bld d b => [encRb 0 d b]
  | .sec => [encS3 0 0]
  | .clc => [encS3 1 0]
  | .sen => [encS3 0 2]
  | .cln => [encS3 1 2]
  | .sez => [encS3 0 1]
  | .clz => [encS3 1 1]
  | .sei => [encS3 0 7]
  | .cli => [encS3 1 7]
  | .ses => [encS3 0 4]
  | .cls => [encS3 1 4]
  | .sev => [encS3 0 3]
  | .clv => [encS3 1 3]
  | .set => [encS3 0 6]
  | .clt => [encS3 1 6]
  | .seh => [encS3 0 5]
  | .clh => [encS3 1 5]
  | .brk => [0x9598]
  | .nop => [0x0000]
  | .sleep => [0x9588]
  | .wdr => [0x95A8]

/-- The first word of an instruction's encoding. -/
def firstWord (i : Instr) : Word :=
  match encode i with
  | w :: _ => w
  | [] => 0

/-- The bytes of a word in program memory, low byte first (R62). -/
def wordBytes (w : Word) : List Byte := [w.setWidth 8, (w >>> 8).setWidth 8]

/-- The bytes of an instruction in program memory. -/
def encodeBytes (i : Instr) : List Byte := (encode i).flatMap wordBytes

/-- The program words of an instruction whose bits spec/opcode_table.json numbers as `w`: one word as it stands,
or two. The table writes a two-word row with its operation-code word in bits 31 to 16 (R6); where bits 31 to 16
are no such word and bits 15 to 0 are one, the first word is bits 15 to 0. A word the table gives no bits is 0. -/
def tableWords (nbits w : Nat) : Word × Word :=
  let lo := BitVec.ofNat 16 w
  let hi := BitVec.ofNat 16 (w / 65536)
  if nbits ≤ 16 then (lo, 0)
  else if isTwoWord lo && !isTwoWord hi then (lo, hi)
  else (hi, lo)

/-- What the decoder reads from an instruction given as the opcode table numbers its bits. -/
def decodeTableWord (nbits w : Nat) : Option Instr :=
  let ws := tableWords nbits w
  match decode (wordBytes ws.1 ++ wordBytes ws.2) with
  | .ok (i, _) => some i
  | .error _ => none

end Sys2Proof
end

