-- ==== Sys2Proof/Config.lean ====
section
/-! DEFINITION. What a device fixes: the configuration record of R5 as plain data, and the free values the spec
leaves to the environment or does not define, as constants without a body. -/

namespace Sys2Proof

/-- Which optional instructions a device has (R5, notes 1 and 2 of the summary; U1, U2). An absent instruction's
word is unassigned. -/
structure Presence where
  adiwSbiw : Bool
  mul : Bool
  jmpCall : Bool
  ijmpIcall : Bool
  eijmpEicall : Bool
  movw : Bool
  ldsSts : Bool
  lddStd : Bool
  lpm : Bool
  /-- LPM Rd,Z and LPM Rd,Z+. -/
  lpmRd : Bool
  elpm : Bool
  spm : Bool
  spmZPlus : Bool
  pushPop : Bool
  brk : Bool
  des : Bool
  /-- LD_ST_VARIANTS: the LD forms the device has. -/
  ldForms : List (Ptr × PtrUse)
  /-- LD_ST_VARIANTS: the ST forms the device has. -/
  stForms : List (Ptr × PtrUse)
deriving DecidableEq, Repr

/-- The I/O locations of the CPU's own registers (R40, D3: open parameters with defaults). -/
structure IoMap where
  rampd : Nat
  rampx : Nat
  rampy : Nat
  rampz : Nat
  eind : Nat
  spl : Nat
  sph : Nat
  sreg : Nat
deriving DecidableEq, Repr

/-- The configuration record (R5). RET_BYTES is `Config.retBytes`; TIMING_CLASS has no effect on any rule (R360)
and is left out. -/
structure Config where
  /-- PC_BITS: width of the program counter (R23). -/
  pcBits : Nat
  /-- FLASHEND: highest word address of program memory. -/
  flashEnd : Nat
  /-- RAMEND: highest byte address of the data space. -/
  ramEnd : Nat
  /-- SRAM_START: first data address that is SRAM. -/
  sramStart : Nat
  /-- IO_BASE: data address of I/O location 0. -/
  ioBase : Nat
  /-- REGS_IN_DATA_SPACE: the register file stands at data addresses 0 to 31. -/
  regsInDataSpace : Bool
  /-- SP_BITS: width of the stack pointer (R35). -/
  spBits : Nat
  /-- SP_RESET: the stack pointer after reset (R47). -/
  spReset : Word
  hasRampd : Bool
  hasRampx : Bool
  hasRampy : Bool
  hasRampz : Bool
  hasEind : Bool
  /-- The I/O locations of R40. -/
  io : IoMap
  /-- Which optional instructions exist. -/
  has : Presence
  /-- IRQ_VECTORS: the interrupt vector numbers the device has (R323). -/
  irqVectors : List Nat
  /-- VECTOR_STRIDE: words per interrupt vector (R324). -/
  vectorStride : Nat
  /-- How SBI and CBI reach an environment location: a read and a write of the whole byte, or a write of the one
  bit (R79, U19). -/
  ioBitReadModifyWrite : Bool
  /-- BREAK ends the run (the spec's own choice in R310), or acts as the hardware without a debugger does (the
  other reading R310 gives). -/
  breakEndsRun : Bool
deriving DecidableEq, Repr

/-- A location that belongs to the I/O environment: an I/O location or an Extended I/O data address (R77, R79). -/
inductive EnvLoc where
  | io (loc : Nat)
  | ext (addr : Nat)
deriving DecidableEq, Repr

/-- FREE VALUE (R79, U18). What the environment answers to a read that no queued input answers, by the number
of free answers drawn before it and the location. Nothing is assumed of it. -/
opaque Config.envByte : Nat → EnvLoc → Byte

/-- FREE VALUE (R158, D16). One DES encryption round of the block R15:R0 with round number K; the spec defines it
nowhere. -/
opaque Config.desEncryptRound : BitVec 128 → BitVec 4 → BitVec 128

/-- FREE VALUE (R158, D16). One DES decryption round. -/
opaque Config.desDecryptRound : BitVec 128 → BitVec 4 → BitVec 128

end Sys2Proof
end

