-- ==== Sys2Proof/Machine/Device.lean ====
section
/-! DEFINITION. Concrete configurations (R5, D1): the spec's two reference configurations, and the device the
machine is after reset. -/

namespace Sys2Proof.Machine

/-- The default I/O locations of R40. -/
def defaultIo : IoMap :=
  { rampd := 0x38, rampx := 0x39, rampy := 0x3A, rampz := 0x3B, eind := 0x3C, spl := 0x3D, sph := 0x3E, sreg := 0x3F }

/-- Every LD or ST form of R220: LD_ST_VARIANTS = all (R5). -/
def allForms : List (Ptr × PtrUse) :=
  [(.x, .plain), (.x, .postInc), (.x, .preDec), (.y, .plain), (.y, .postInc), (.y, .preDec),
    (.z, .plain), (.z, .postInc), (.z, .preDec)]

/-- Every optional instruction present. -/
def allPresent : Presence :=
  { adiwSbiw := true, mul := true, jmpCall := true, ijmpIcall := true, eijmpEicall := true, movw := true,
    ldsSts := true, lddStd := true, lpm := true, lpmRd := true, elpm := true, spm := true, spmZPlus := true,
    pushPop := true, brk := true, des := true, ldForms := allForms, stForms := allForms }

/-- The reference configuration REF16 (R5). SP_RESET is unspecified there; RAMEND is the value the spec's vectors
start from (log 3). DESIGN CHOICE (log 33): VECTOR_STRIDE is empty in R5's cell and 1 here; it has no effect while
IRQ_VECTORS is empty. -/
def ref16 : Config :=
  { pcBits := 16, flashEnd := 0x3FFF, ramEnd := 0x08FF, sramStart := 0x0100, ioBase := 0x20,
    regsInDataSpace := true, spBits := 16, spReset := 0x08FF, hasRampd := false, hasRampx := false,
    hasRampy := false, hasRampz := false, hasEind := false, io := defaultIo,
    has := { allPresent with eijmpEicall := false, elpm := false, spmZPlus := false, des := false },
    irqVectors := [], vectorStride := 1, ioBitReadModifyWrite := true, breakEndsRun := true }

/-- The reference configuration REF22 (R5). SP_RESET is RAMEND (log 3). DESIGN CHOICE (log 33): VECTOR_STRIDE is empty
in R5's cell and 1 here; it has no effect while IRQ_VECTORS is empty. -/
def ref22 : Config :=
  { pcBits := 22, flashEnd := 0x1FFFF, ramEnd := 0x21FF, sramStart := 0x0200, ioBase := 0x20,
    regsInDataSpace := true, spBits := 16, spReset := 0x21FF, hasRampd := false, hasRampx := false,
    hasRampy := false, hasRampz := true, hasEind := true, io := defaultIo,
    has := { allPresent with spmZPlus := false, des := false },
    irqVectors := [], vectorStride := 1, ioBitReadModifyWrite := true, breakEndsRun := true }

/-- The device the machine is after reset. DESIGN CHOICE (logs 1, 3, 11 and 33): REF22 with the two instruction groups
it lacks, DES and SPM Z+, present, so that every instruction of the table is assigned; SP_RESET is RAMEND;
VECTOR_STRIDE is 1, as in REF22; and BREAK acts as on hardware without a debugger (R310). -/
def resetDevice : Config := { ref22 with has := allPresent, breakEndsRun := false }

end Sys2Proof.Machine
end

