-- ==== Sys2Proof/Machine/State.lean ====
section
/-! DEFINITION. The state of the machine (10_state.md), the reasons a step can stop (R321), and the state after
reset (R47, R350). -/

namespace Sys2Proof.Machine

/-- What the I/O environment raises, withdraws and asks for at one instruction boundary (R323, R325, R350). -/
structure EnvTick where
  /-- Env.poll(): the vector numbers raised and enabled. -/
  poll : List Nat
  /-- Env.withdrawn(): the requests withdrawn. -/
  withdrawn : List Nat
  /-- Env.reset_request(). -/
  resetRequest : Bool
deriving DecidableEq, Repr

/-- What the environment is told (R79, R313). -/
inductive EnvEvent where
  /-- a read of one of its locations and the byte it answered -/
  | read (l : EnvLoc) (v : Byte)
  /-- a write of one of its locations -/
  | write (l : EnvLoc) (v : Byte)
  /-- a write of one bit, where SBI and CBI are such writes -/
  | bitWrite (l : EnvLoc) (b : BitVec 3) (x : Bool)
  /-- WDR was executed -/
  | watchdogReset
deriving DecidableEq, Repr

/-- The machine's state: everything 10_state.md names, the configuration (which no step changes), and the
environment's queued answers and the trace of what it was told. INVENTORY.md lists each field's rule. -/
structure State where
  /-- the device (R5) -/
  cfg : Config
  /-- R0 to R31 (R20) -/
  regs : Vector Byte 32
  /-- the program counter, a word address (R23) -/
  pc : PAddr
  /-- I T H S V N Z C, bits 7 to 0 (R25) -/
  sreg : Byte
  /-- the stack pointer (R35) -/
  sp : Word
  /-- RAMPD (R38) -/
  rampd : Byte
  /-- RAMPX (R37) -/
  rampx : Byte
  /-- RAMPY (R37) -/
  rampy : Byte
  /-- RAMPZ (R37) -/
  rampz : Byte
  /-- EIND (R39) -/
  eind : Byte
  /-- SRAM by data address, in the canonical form of `Memory.wf` (R43, R71) -/
  sram : List Host.Cell
  /-- program memory by byte address, in the same form (R42, R62) -/
  flash : List Host.Cell
  /-- irq_pending, strictly rising (R46, R323) -/
  irqPending : List Nat
  /-- irq_holdoff (R46, R326) -/
  irqHoldoff : Bool
  /-- sleeping (R46, R312) -/
  sleeping : Bool
  /-- the environment's answers to the next reads of its locations, oldest first (R79) -/
  ioInputs : List Byte
  /-- how many answers were drawn as free values: the model's own field (R79, log 8) -/
  envDraws : Nat
  /-- what the environment does at the next boundaries, oldest first (R323, R325) -/
  envTicks : List EnvTick
  /-- what the environment was told, newest first (R79, R313) -/
  envTrace : List EnvEvent
deriving DecidableEq, Repr

/-- The normal ends of a run: the outcomes of that kind in R321's table (log 13). -/
inductive Fault where
  /-- Raised by BREAK where the device's BREAK ends the run: a normal end (R310, R321). Safe: nothing is claimed
  of what follows. -/
  | breakReached (pc : PAddr)
  /-- Raised by the step when the core sleeps and no interrupt can be accepted any more: a normal end (R312, R321).
  Safe: the state would not change. -/
  | asleep
deriving DecidableEq, Repr

/-- Why an instruction, or an access it makes, has no meaning here: the outcomes whose kind is refusal in R321's table
(D4, D29), and the arm that is not modelled yet. A refused step has no effect. -/
inductive Refusal where
  /-- Raised by an arm of `exec` whose instruction has no meaning yet; no arm does. Safe. -/
  | notModelled (mnemonic : String)
  /-- Raised by the fetch of an unassigned word, or of an instruction the device lacks (R113). Safe. -/
  | unassignedOpcode (pc : PAddr) (word : Word)
  /-- Raised by a load, store or LPM/ELPM that updates a pointer its register is half of (R221). Safe. -/
  | undefinedOperands (pc : PAddr) (word : Word)
  /-- Raised by SPM and SPM Z+ (R255, R256). Safe. -/
  | spmNotModelled (pc : PAddr)
  /-- Raised by a data access at an address where nothing is (R72, R77, R78, U13). Safe: real devices go on. -/
  | unmappedData (addr : Nat)
  /-- Raised by a fetch, a second-word fetch, a taken skip's look-ahead, LPM or ELPM above FLASHEND (R72, R80, U14).
  Safe: real devices go on. -/
  | unmappedProgram (addr : Nat)
deriving DecidableEq, Repr

/-- What an operation of the machine answers: a value, or a stop. -/
abbrev Res (α : Type) := Host.Outcome α Fault Refusal

/-- The machine right after reset (R47, R350). The registers, SP and the device are the model's choice (logs 1, 2
and 3); memory lists nothing. -/
def State.reset : State :=
  { cfg := resetDevice
    regs := Vector.replicate 32 0
    pc := 0
    sreg := 0
    sp := resetDevice.spReset
    rampd := 0
    rampx := 0
    rampy := 0
    rampz := 0
    eind := 0
    sram := []
    flash := []
    irqPending := []
    irqHoldoff := false
    sleeping := false
    ioInputs := []
    envDraws := 0
    envTicks := []
    envTrace := [] }

end Sys2Proof.Machine
end

