-- ==== Sys2Proof/Machine/Flags.lean ====
section
/-! DEFINITION. SREG's bits and every flag computation of the spec: R122 to R127 and R270. -/

namespace Sys2Proof.Machine

/-- One bit of a status byte. -/
def flagOf (x : Byte) (f : Flag) : Bool := x.getLsbD f.bit

/-- A status byte with one bit set to `b`. -/
def putFlag (x : Byte) (f : Flag) (b : Bool) : Byte :=
  let mask : Byte := 1#8 <<< f.bit
  if b then x ||| mask else x &&& ~~~mask

/-- The flag the operand `s` of BSET, BCLR, BRBS and BRBC names (R25). -/
def flagNumber (s : BitVec 3) : Flag :=
  match s.toNat with
  | 0 => .c | 1 => .z | 2 => .n | 3 => .v | 4 => .s | 5 => .h | 6 => .t | _ => .i

/-- A flag of the machine. -/
def State.flag (st : State) (f : Flag) : Bool := flagOf st.sreg f

/-- The machine with one flag set to `b`. -/
def State.setFlag (st : State) (f : Flag) (b : Bool) : State := { st with sreg := putFlag st.sreg f b }

/-- A result and the six flags an arithmetic instruction may write. -/
structure Alu where
  r : Byte
  h : Bool
  v : Bool
  n : Bool
  z : Bool
  c : Bool
deriving DecidableEq, Repr

/-- S = N exclusive-or V (R30). -/
def Alu.s (f : Alu) : Bool := f.n ^^ f.v

/-- The addition every 8-bit add uses (R122). -/
def add8 (a b : Byte) (cin : Bool) : Alu :=
  let r := a + b + (if cin then 1 else 0)
  { r := r
    h := (a.getLsbD 3 && b.getLsbD 3) || (b.getLsbD 3 && !r.getLsbD 3) || (!r.getLsbD 3 && a.getLsbD 3)
    v := (a.getLsbD 7 && b.getLsbD 7 && !r.getLsbD 7) || (!a.getLsbD 7 && !b.getLsbD 7 && r.getLsbD 7)
    n := r.getLsbD 7
    z := r = 0
    c := (a.getLsbD 7 && b.getLsbD 7) || (b.getLsbD 7 && !r.getLsbD 7) || (!r.getLsbD 7 && a.getLsbD 7) }

/-- The subtraction every 8-bit subtract and compare uses (R123); `z` is the rule's Zr. -/
def sub8 (a b : Byte) (cin : Bool) : Alu :=
  let r := a - b - (if cin then 1 else 0)
  { r := r
    h := (!a.getLsbD 3 && b.getLsbD 3) || (b.getLsbD 3 && r.getLsbD 3) || (r.getLsbD 3 && !a.getLsbD 3)
    v := (a.getLsbD 7 && !b.getLsbD 7 && !r.getLsbD 7) || (!a.getLsbD 7 && b.getLsbD 7 && r.getLsbD 7)
    n := r.getLsbD 7
    z := r = 0
    c := (!a.getLsbD 7 && b.getLsbD 7) || (b.getLsbD 7 && r.getLsbD 7) || (r.getLsbD 7 && !a.getLsbD 7) }

/-- Z of SBC, SBCI and CPC: kept when the result is zero, cleared otherwise (R127). -/
def stickyZ (f : Alu) (oldZ : Bool) : Alu := { f with z := f.z && oldZ }

/-- SREG with N, V given, Z as given, and S their exclusive-or (R30). -/
def putSVNZ (x : Byte) (v n z : Bool) : Byte :=
  putFlag (putFlag (putFlag (putFlag x .s (n ^^ v)) .v v) .n n) .z z

/-- SREG after an 8-bit add, subtract or compare: H, S, V, N, Z, C written, I and T kept. -/
def putAlu (x : Byte) (f : Alu) : Byte :=
  putFlag (putFlag (putSVNZ x f.v f.n f.z) .h f.h) .c f.c

/-- SREG after an 8-bit logical instruction with result `r`: V cleared, N, Z, S from the result; H and C kept
(R124). -/
def putLogic (x : Byte) (r : Byte) : Byte := putSVNZ x false (r.getLsbD 7) (r = 0)

/-- SREG after COM with result `r`: as a logical instruction, and C set (R143). -/
def putCom (x : Byte) (r : Byte) : Byte := putFlag (putLogic x r) .c true

/-- SREG after INC or DEC with result `r`, where `v` says whether it overflowed: C and H kept (R147, R148). -/
def putStep (x : Byte) (v : Bool) (r : Byte) : Byte := putSVNZ x v (r.getLsbD 7) (r = 0)

/-- SREG after ADIW of a pair `a` with result `r` (R125): H kept. -/
def putAdiw (x : Byte) (a r : Word) : Byte :=
  putFlag (putSVNZ x (!a.getLsbD 15 && r.getLsbD 15) (r.getLsbD 15) (r = 0)) .c (!r.getLsbD 15 && a.getLsbD 15)

/-- SREG after SBIW of a pair `a` with result `r` (R125, R137): H kept. -/
def putSbiw (x : Byte) (a r : Word) : Byte :=
  putFlag (putSVNZ x (a.getLsbD 15 && !r.getLsbD 15) (r.getLsbD 15) (r = 0)) .c (r.getLsbD 15 && !a.getLsbD 15)

/-- SREG after a multiply: C is bit 15 of the product `p` before any shift, Z judges the value `r` written to
R1:R0 (R126). -/
def putMul (x : Byte) (p r : Word) : Byte := putFlag (putFlag x .c (p.getLsbD 15)) .z (r = 0)

/-- SREG after a shift or rotate with result `r` and `cout` shifted out: V = N exclusive-or C (R270); H kept. -/
def putShift (x : Byte) (r : Byte) (cout : Bool) : Byte :=
  putFlag (putSVNZ x (r.getLsbD 7 ^^ cout) (r.getLsbD 7) (r = 0)) .c cout

/-- SREG after LSL or ROL of a register that held `a`: as the other shifts, and H is bit 3 of `a` (R270). -/
def putShiftLeft (x : Byte) (a r : Byte) : Byte := putFlag (putShift x r (a.getLsbD 7)) .h (a.getLsbD 3)

end Sys2Proof.Machine
end

