-- ==== Sys2Proof/Machine/Memory.lean ====
section
/-! DEFINITION. A memory as a list of (address, byte) pairs in one canonical form: addresses strictly rising, and
no entry equal to what an unlisted address reads as. The data space's SRAM and program memory are two such lists. -/

namespace Sys2Proof.Machine

/-- A sparse memory. -/
abbrev Memory := List Host.Cell

/-- What an SRAM byte nothing has written reads as. DESIGN CHOICE (log 4): R47 gives SRAM no value. -/
def sramBlank : Byte := 0x00

/-- What a program byte outside the image reads as. DESIGN CHOICE (log 5), after the erased memory of R311. -/
def flashBlank : Byte := 0xFF

/-- The byte at an address; `blank` where nothing is listed. -/
def memGet (blank : Byte) : Memory → Nat → Byte
  | [], _ => blank
  | (b, v) :: rest, a => if a = b then v else memGet blank rest a

/-- The entry for `v` at `a` in front of `m`, or none where `v` is what an unlisted address reads as. -/
def memEntry (blank : Byte) (a : Nat) (v : Byte) (m : Memory) : Memory :=
  if v = blank then m else (a, v) :: m

/-- The memory with byte `v` at address `a`. -/
def memPut (blank : Byte) : Memory → Nat → Byte → Memory
  | [], a, v => memEntry blank a v []
  | (b, w) :: rest, a, v =>
    if a < b then memEntry blank a v ((b, w) :: rest)
    else if a = b then memEntry blank a v rest
    else (b, w) :: memPut blank rest a v

/-- The canonical form: addresses strictly rise and no entry is what an unlisted address reads as. -/
abbrev Memory.wf (blank : Byte) (m : Memory) : Prop :=
  m.Pairwise (fun x y => x.1 < y.1) ∧ ∀ c ∈ m, c.2 ≠ blank

/-- The SRAM byte at a data address. -/
def State.sramAt (s : State) (a : Nat) : Byte := memGet sramBlank s.sram a

/-- The byte of program memory at a byte address. -/
def State.flashAt (s : State) (b : Nat) : Byte := memGet flashBlank s.flash b

end Sys2Proof.Machine
end

