-- ==== Sys2Proof/Machine/Ops.lean ====
section
/-! DEFINITION. The named operations every meaning is written with: registers and pairs (R7, R21), the program
counter (R24), the data space, I/O space and program memory (R77 to R80), the stack (R172, R173), the skip (R171),
interrupt entry and return (R327, R329), and the reset event (R350). -/

namespace Sys2Proof.Machine

/-- The next operation where this one answers, this one's stop where it stops. -/
def Res.andThen {α β : Type} (x : Res α) (f : α → Res β) : Res β :=
  match x with
  | .next a => f a
  | .fault r => .fault r
  | .refused r => .refused r

/-! ### Registers -/

/-- `R[i]` (R7). -/
def State.reg (s : State) (d : Reg) : Byte := s.regs[d.val]

/-- `R[i] <- v` (R7). No register is hard-wired (R20). -/
def State.setReg (s : State) (d : Reg) (v : Byte) : State := { s with regs := s.regs.set d.val v d.isLt }

/-- The register after `d`: the high half of the pair `d` names (R21). -/
def highOf (d : Reg) : Reg := regOf (d.val + 1)

/-- `RP[i]`, high byte in the higher register (R7, R21). -/
def State.pair (s : State) (d : Reg) : Word := s.reg (highOf d) ++ s.reg d

/-- The high byte of a word. -/
def highByte (v : Word) : Byte := (v >>> 8).setWidth 8

/-- The low byte of a word. -/
def lowByte (v : Word) : Byte := v.setWidth 8

/-- `RP[i] <- v` (R7). -/
def State.setPair (s : State) (d : Reg) (v : Word) : State :=
  (s.setReg (highOf d) (highByte v)).setReg d (lowByte v)

/-- The low register of a pointer (R21). -/
def Ptr.low (p : Ptr) : Reg := regOf p.lowNumber

/-- X, Y or Z (R21). -/
def State.ptr (s : State) (p : Ptr) : Word := s.pair (Ptr.low p)

/-- The 128-bit block R15:R0 of DES, R15 most significant (R158). -/
def State.block (s : State) : BitVec 128 :=
  s.pair 14 ++ s.pair 12 ++ s.pair 10 ++ s.pair 8 ++ s.pair 6 ++ s.pair 4 ++ s.pair 2 ++ s.pair 0

/-- `R[15..0] <- v`, R15 most significant (R158). -/
def State.setBlock (s : State) (v : BitVec 128) : State :=
  { s with regs := Vector.ofFn fun i : Fin 32 =>
      if i.val < 16 then (v >>> (8 * i.val)).setWidth 8 else s.reg i }

/-! ### Program counter -/

/-- A word address modulo 2^PC_BITS (R24, D17). -/
def wrapPc (c : Config) (n : Int) : PAddr := BitVec.ofNat 22 (n % ((2 ^ c.pcBits : Nat) : Int)).toNat

/-- `pc <- n mod 2^PC_BITS`. -/
def State.jump (s : State) (n : Int) : State := { s with pc := wrapPc s.cfg n }

/-- `pc <- pc + n`: the end of an instruction of `n` words that transfers no control (R24). -/
def State.advance (s : State) (n : Nat) : State := s.jump (s.pc.toNat + n)

/-- `reltarget(k)` as the distance from the branch: `pc + 1 + k` (R170). -/
def State.jumpRel (s : State) (k : Int) : State := s.jump (s.pc.toNat + 1 + k)

/-! ### The CPU's own I/O registers -/

/-- The CPU's own I/O registers (R40). -/
inductive CpuReg where
  | rampd | rampx | rampy | rampz | eind | spl | sph | sreg
deriving DecidableEq, Repr

/-- The CPU register at an I/O location, where the device has it (R40, R79). -/
def cpuRegAt (c : Config) (a : Nat) : Option CpuReg :=
  if a = c.io.sreg then some .sreg
  else if a = c.io.sph && 8 < c.spBits then some .sph
  else if a = c.io.spl then some .spl
  else if a = c.io.eind && c.hasEind then some .eind
  else if a = c.io.rampz && c.hasRampz then some .rampz
  else if a = c.io.rampy && c.hasRampy then some .rampy
  else if a = c.io.rampx && c.hasRampx then some .rampx
  else if a = c.io.rampd && c.hasRampd then some .rampd
  else none

/-- The bits of an extension register that addresses up to `top` need: bit `k` extends an address as its bit
`16 + k`, and the device implements it where some address up to `top` has that bit (R37, log 22). -/
def neededBits (top : Nat) : Byte :=
  ((List.range 8).map fun k => if 2 ^ (16 + k) ≤ top then 1#8 <<< k else 0).foldl (· ||| ·) 0

/-- The bits of a CPU register that a write keeps; the others read zero. RAMPD, RAMPX and RAMPY implement as many low
bits as the data space needs, RAMPZ as many as program memory and, where the other three exist, the data space need
(R37, R40). Every other register keeps the whole byte. -/
def keptBits (c : Config) : CpuReg → Byte
  | .rampd => neededBits c.ramEnd
  | .rampx => neededBits c.ramEnd
  | .rampy => neededBits c.ramEnd
  | .rampz => neededBits (max (2 * c.flashEnd + 1) (if c.hasRampx then c.ramEnd else 0))
  | .eind => 0xFF
  | .spl => 0xFF
  | .sph => 0xFF
  | .sreg => 0xFF

/-- A stack pointer value modulo 2^SP_BITS (R35). -/
def wrapSp (c : Config) (n : Int) : Word := BitVec.ofNat 16 (n % ((2 ^ c.spBits : Nat) : Int)).toNat

/-- `SP <- n mod 2^SP_BITS`. -/
def State.setSp (s : State) (n : Int) : State := { s with sp := wrapSp s.cfg n }

/-- The value of a CPU register as an I/O location (R34, R35, R40). -/
def State.readCpu (s : State) : CpuReg → Byte
  | .rampd => s.rampd
  | .rampx => s.rampx
  | .rampy => s.rampy
  | .rampz => s.rampz
  | .eind => s.eind
  | .spl => lowByte s.sp
  | .sph => highByte s.sp
  | .sreg => s.sreg

/-- SREG written as a byte: all eight flags, and the hold-off where I goes from 0 to 1 (R34, R326). -/
def State.writeSreg (s : State) (v : Byte) : State :=
  { s with sreg := v, irqHoldoff := s.irqHoldoff || (!flagOf s.sreg .i && flagOf v .i) }

/-- A CPU register written as an I/O location. A RAMP register keeps the bits the device implements (R37), SP the
bits it has (R35). -/
def State.writeCpu (s : State) (r : CpuReg) (v : Byte) : State :=
  match r with
  | .rampd => { s with rampd := v &&& keptBits s.cfg .rampd }
  | .rampx => { s with rampx := v &&& keptBits s.cfg .rampx }
  | .rampy => { s with rampy := v &&& keptBits s.cfg .rampy }
  | .rampz => { s with rampz := v &&& keptBits s.cfg .rampz }
  | .eind => { s with eind := v }
  | .spl => s.setSp (highByte s.sp ++ v : Word).toNat
  | .sph => s.setSp (v ++ lowByte s.sp : Word).toNat
  | .sreg => s.writeSreg v

/-! ### The I/O environment -/

/-- `Env.read`: the next queued answer, or a free value where none is queued (R79). -/
def State.envRead (s : State) (l : EnvLoc) : Byte × State :=
  match s.ioInputs with
  | v :: rest => (v, { s with ioInputs := rest, envTrace := .read l v :: s.envTrace })
  | [] =>
    (Config.envByte s.envDraws l,
      { s with envDraws := s.envDraws + 1, envTrace := .read l (Config.envByte s.envDraws l) :: s.envTrace })

/-- `Env.write`: an output event (R79). -/
def State.envWrite (s : State) (l : EnvLoc) (v : Byte) : State :=
  { s with envTrace := .write l v :: s.envTrace }

/-- `IORead(A)` (R79). -/
def State.ioRead (s : State) (a : Nat) : Byte × State :=
  match cpuRegAt s.cfg a with
  | some r => (s.readCpu r, s)
  | none => s.envRead (.io a)

/-- `IOWrite(A, v)` (R79). -/
def State.ioWrite (s : State) (a : Nat) (v : Byte) : State :=
  match cpuRegAt s.cfg a with
  | some r => s.writeCpu r v
  | none => s.envWrite (.io a) v

/-- A byte with bit `b` set to `x`. -/
def putBit (v : Byte) (b : BitVec 3) (x : Bool) : Byte :=
  if x then v ||| 1#8 <<< b.toNat else v &&& ~~~(1#8 <<< b.toNat)

/-- `IOBitWrite(A, b, x)`: by default a read and a write of the whole location, on some devices a write of the
one bit (R79, U19). Locations 0 to 31 hold none of the CPU's registers. -/
def State.ioBitWrite (s : State) (a : Nat) (b : BitVec 3) (x : Bool) : State :=
  if s.cfg.ioBitReadModifyWrite then
    let (v, s') := s.envRead (.io a)
    s'.envWrite (.io a) (putBit v b x)
  else { s with envTrace := .bitWrite (.io a) b x :: s.envTrace }

/-! ### Data space -/

/-- What stands at a data address (R71, R77): the chain of R77's tests. -/
inductive DataPlace where
  | register (d : Reg)
  | io (loc : Nat)
  | extended
  | sram
  | nothing
deriving DecidableEq, Repr

/-- The place a data address names (R71, R77, R78). -/
def placeOf (c : Config) (a : Nat) : DataPlace :=
  if c.regsInDataSpace && a ≤ 31 then .register (regOf a)
  else if c.ioBase ≤ a && a ≤ c.ioBase + 63 then .io (a - c.ioBase)
  else if c.ioBase + 64 ≤ a && a < c.sramStart then .extended
  else if c.sramStart ≤ a && a ≤ c.ramEnd then .sram
  else .nothing

/-- `MemRead(addr, 1)` (R77): the byte, and the machine after the read. -/
def State.memRead (s : State) (a : Nat) : Res (Byte × State) :=
  match placeOf s.cfg a with
  | .register d => .next (s.reg d, s)
  | .io loc => .next (s.ioRead loc)
  | .extended => .next (s.envRead (.ext a))
  | .sram => .next (s.sramAt a, s)
  | .nothing => .refused (.unmappedData a)

/-- `MemWrite(addr, 1, v)` (R78). -/
def State.memWrite (s : State) (a : Nat) (v : Byte) : Res State :=
  match placeOf s.cfg a with
  | .register d => .next (s.setReg d v)
  | .io loc => .next (s.ioWrite loc v)
  | .extended => .next (s.envWrite (.ext a) v)
  | .sram => .next { s with sram := memPut sramBlank s.sram a v }
  | .nothing => .refused (.unmappedData a)

/-! ### Program memory -/

/-- `ProgWord(a)` (R80), its low byte at byte address 2a (R62). -/
def State.progWord (s : State) (a : Nat) : Res Word :=
  if a ≤ s.cfg.flashEnd then .next (s.flashAt (2 * a + 1) ++ s.flashAt (2 * a))
  else .refused (.unmappedProgram a)

/-- `ProgWord(pc + 1)`, the address modulo 2^PC_BITS (R24, log 28): the second word of an instruction (R63), and what a
skip looks at (R171). -/
def State.nextWord (s : State) : Res Word := s.progWord (wrapPc s.cfg (s.pc.toNat + 1)).toNat

/-- `ProgByte(b)` (R7, R62). -/
def State.progByte (s : State) (b : Nat) : Res Byte :=
  (s.progWord (b / 2)).andThen fun w => .next (if b % 2 = 0 then lowByte w else highByte w)

/-! ### Stack -/

/-- `push8(v)` (R172): write at SP, then decrement it. -/
def State.push8 (s : State) (v : Byte) : Res State :=
  (s.memWrite s.sp.toNat v).andThen fun s' => .next (s'.setSp (s'.sp.toNat - 1))

/-- `pop8()` (R173): increment SP, then read at it. -/
def State.pop8 (s : State) : Res (Byte × State) :=
  let s' := s.setSp (s.sp.toNat + 1)
  s'.memRead s'.sp.toNat

/-- RET_BYTES: 2 where PC_BITS is at most 16, else 3 (R5, R172, D19). -/
def retBytes (c : Config) : Nat := if c.pcBits ≤ 16 then 2 else 3

/-- `push_ret(a)` (R172): the return address, low byte first. -/
def State.pushRet (s : State) (a : PAddr) : Res State :=
  (s.push8 (a.setWidth 8)).andThen fun s1 =>
  (s1.push8 ((a >>> 8).setWidth 8)).andThen fun s2 =>
  if retBytes s.cfg = 3 then s2.push8 ((a >>> 16).setWidth 8) else .next s2

/-- The high byte of a popped return address: popped where RET_BYTES is 3, else 0 (R173). -/
def State.popHigh (s : State) : Res (Byte × State) :=
  if retBytes s.cfg = 3 then s.pop8 else .next (0, s)

/-- `pop_ret()` (R173): the popped address and the machine after it; the caller takes it modulo 2^PC_BITS. -/
def State.popRet (s : State) : Res (BitVec 24 × State) :=
  s.popHigh.andThen fun (hi, s1) =>
  s1.pop8.andThen fun (mid, s2) =>
  s2.pop8.andThen fun (lo, s3) =>
  .next (hi ++ mid ++ lo, s3)

/-- `push_ret(pc + words); pc <- target`: what every call does (R178 to R181). -/
def State.callTo (s : State) (words : Nat) (target : Int) : Res State :=
  (s.pushRet (wrapPc s.cfg (s.pc.toNat + words))).andThen fun s' => .next (s'.jump target)

/-- `pc <- pop_ret()` (R182). -/
def State.returnToPopped (s : State) : Res State :=
  s.popRet.andThen fun (a, s') => .next (s'.jump a.toNat)

/-! ### Skip -/

/-- `skip(cond)` (R171). The length of the instruction after this one decides how far a taken skip goes; where it
lies above FLASHEND a taken skip stops. Looking it up changes nothing, so it is looked up first. -/
def State.skip (s : State) (cond : Bool) : Res State :=
  match s.nextWord with
  | .next w => .next (s.advance (if cond then (if isTwoWord w then 3 else 2) else 1))
  | .fault r => if cond then .fault r else .next (s.advance 1)
  | .refused r => if cond then .refused r else .next (s.advance 1)

/-! ### SREG bits that matter to interrupts -/

/-- `SREG[s] <- 1`; where it sets I that was 0, the hold-off starts (R277, R289, R326). -/
def State.raiseFlag (s : State) (f : Flag) : State :=
  { s with
    sreg := putFlag s.sreg f true
    irqHoldoff := s.irqHoldoff || (f = .i && !flagOf s.sreg .i) }

/-! ### Interrupts: entry and return -/

/-- `interrupt_entry(n)` (R327): acknowledge the request, wake, push the return address, clear I, go to the
vector. Nothing else is saved or changed. -/
def State.interruptEntry (s : State) (n : Nat) : Res State :=
  ({ s with irqPending := s.irqPending.filter (· ≠ n), sleeping := false }.pushRet s.pc).andThen fun s' =>
    .next ((s'.setFlag .i false).jump (n * s.cfg.vectorStride : Nat))

/-- The return from an interrupt (R183, R329): pop the address, set I, start the hold-off. -/
def State.interruptReturn (s : State) : Res State :=
  s.returnToPopped.andThen fun s' => .next { s'.setFlag .i true with irqHoldoff := true }

/-! ### Reset -/

/-- The reset event (R350): every piece of state at the value of R47's table. Registers and SRAM keep what they
held, because the rule gives them no value. -/
def State.resetEvent (s : State) : State :=
  { s with
    pc := 0, sreg := 0, sp := wrapSp s.cfg s.cfg.spReset.toNat
    rampd := 0, rampx := 0, rampy := 0, rampz := 0, eind := 0
    irqPending := [], irqHoldoff := false, sleeping := false }

end Sys2Proof.Machine
end

