-- ==== Sys2Proof/Machine/Operands.lean ====
section
/-! DEFINITION. How loads and stores find their data address (R220, R221): indirect, with displacement, with the
pointer updated, direct; with the RAMP registers where the device has them. -/

namespace Sys2Proof.Machine

/-- BIG_DATA: the device has more than 64K bytes of data space (R220). -/
def bigData (c : Config) : Bool := c.hasRampx

/-- The RAMP register of a pointer, as a register of the CPU (R37). -/
def Ptr.ramp : Ptr → CpuReg
  | .x => .rampx
  | .y => .rampy
  | .z => .rampz

/-- RAMPP: the value of a pointer's RAMP register (R37). -/
def State.rampOf (s : State) : Ptr → Byte
  | .x => s.rampx
  | .y => s.rampy
  | .z => s.rampz

/-- `RAMPP <- v`: the bits the device implements (R37). -/
def State.setRamp (s : State) (p : Ptr) (v : Byte) : State := s.writeCpu (Ptr.ramp p) v

/-- AW: the width of a data address (R220). -/
def addrBits (c : Config) : Nat := if bigData c then 24 else 16

/-- `ptr(P)`: the address in a pointer, extended by its RAMP register on a BIG_DATA device (R220). -/
def State.ptrAddr (s : State) (p : Ptr) : Nat :=
  if bigData s.cfg then (s.rampOf p).toNat * 65536 + (s.ptr p).toNat else (s.ptr p).toNat

/-- A data address modulo 2^AW (R220). -/
def wrapAddr (c : Config) (n : Int) : Nat := (n % ((2 ^ addrBits c : Nat) : Int)).toNat

/-- `setptr(P, a)` (R220). -/
def State.setPtrAddr (s : State) (p : Ptr) (a : Nat) : State :=
  if bigData s.cfg then (s.setRamp p (BitVec.ofNat 8 (a / 65536))).setPair (Ptr.low p) (BitVec.ofNat 16 a)
  else s.setPair (Ptr.low p) (BitVec.ofNat 16 a)

/-- `ea_disp(P, q)` (R220). -/
def State.eaDisp (s : State) (p : Ptr) (q : BitVec 6) : Nat := wrapAddr s.cfg (s.ptrAddr p + q.toNat)

/-- `ea_direct(k)` (R220, C8). -/
def State.eaDirect (s : State) (k : Word) : Nat :=
  if bigData s.cfg then s.rampd.toNat * 65536 + k.toNat else k.toNat

/-- The address after a post-increment (R220). -/
def State.incAddr (s : State) (p : Ptr) : Nat := wrapAddr s.cfg (s.ptrAddr p + 1)

/-- The address a pre-decrement gives (R220). -/
def State.decAddr (s : State) (p : Ptr) : Nat := wrapAddr s.cfg (s.ptrAddr p - 1)

/-- A load of `Rd` from a data address by an instruction of `words` words. -/
def State.loadFrom (s : State) (d : Reg) (a words : Nat) : Res State :=
  (s.memRead a).andThen fun (v, s') => .next ((s'.setReg d v).advance words)

/-- A store of a byte to a data address by an instruction of `words` words. -/
def State.storeTo (s : State) (a : Nat) (v : Byte) (words : Nat) : Res State :=
  (s.memWrite a v).andThen fun s' => .next (s'.advance words)

/-- The operands of a form that updates its pointer: refused where the register is half of the pointer (R221). -/
def State.offPointerOr (s : State) (p : Ptr) (d : Reg) (i : Instr) (go : Res State) : Res State :=
  if offPointer p d then go else .refused (.undefinedOperands s.pc (firstWord i))

/-- A load with post-increment: the access at the pointer, then the pointer one higher (R220). -/
def State.loadInc (s : State) (p : Ptr) (d : Reg) : Res State :=
  (s.memRead (s.ptrAddr p)).andThen fun (v, s') =>
    .next (((s'.setReg d v).setPtrAddr p (s.incAddr p)).advance 1)

/-- A load with pre-decrement: the pointer one lower, then the access there (R220). -/
def State.loadDec (s : State) (p : Ptr) (d : Reg) : Res State :=
  (s.setPtrAddr p (s.decAddr p)).loadFrom d (s.decAddr p) 1

/-- A store with post-increment (R220). -/
def State.storeInc (s : State) (p : Ptr) (r : Reg) : Res State :=
  (s.memWrite (s.ptrAddr p) (s.reg r)).andThen fun s' =>
    .next ((s'.setPtrAddr p (s.incAddr p)).advance 1)

/-- A store with pre-decrement (R220); the stored register is read first (R120). -/
def State.storeDec (s : State) (p : Ptr) (r : Reg) : Res State :=
  (s.setPtrAddr p (s.decAddr p)).storeTo (s.decAddr p) (s.reg r) 1

/-- A load of one byte of program memory into `Rd` (R249 to R253). -/
def State.loadProgram (s : State) (d : Reg) (b : Nat) : Res State :=
  (s.progByte b).andThen fun v => .next ((s.setReg d v).advance 1)

/-- `RAMPZ : Z`, the 24-bit byte address of ELPM (R252). -/
def State.elpmAddr (s : State) : Nat := s.rampz.toNat * 65536 + (s.ptr .z).toNat

end Sys2Proof.Machine
end

