-- ==== Sys2Proof/Machine/Boundary.lean ====
section
/-! DEFINITION. What happens around an instruction (60_exceptions.md R323 to R328): the environment's inputs at a
boundary, which interrupt is accepted, the sleeping core, and the fetch. -/

namespace Sys2Proof.Machine

/-! ### The environment at a boundary -/

/-- The environment does nothing at this boundary. -/
def EnvTick.quiet : EnvTick := { poll := [], withdrawn := [], resetRequest := false }

/-- What the environment does at this boundary: the next queued input, or nothing where none is queued (log 9). -/
def State.tick (s : State) : EnvTick := s.envTicks.headD EnvTick.quiet

/-- A vector number added to a strictly rising list. -/
def insertIrq (n : Nat) : List Nat → List Nat
  | [] => [n]
  | m :: rest => if n < m then n :: m :: rest else if n = m then m :: rest else m :: insertIrq n rest

/-- A list of vector numbers as a set: strictly rising, no repeats. -/
def irqSet (l : List Nat) : List Nat := l.foldr insertIrq []

/-- `irq_pending <- (irq_pending ∪ Env.poll()) \ Env.withdrawn()` (R323, R325), the input consumed. Env.poll()
answers vectors the device has (U24). -/
def State.pollEnv (s : State) : State :=
  { s with
    envTicks := s.envTicks.tail
    irqPending :=
      (irqSet (s.irqPending ++ s.tick.poll.filter (· ∈ s.cfg.irqVectors))).filter (· ∉ s.tick.withdrawn) }

/-- The request accepted at a boundary: the lowest pending vector, where I is set and the hold-off clear (R325,
R328). -/
def State.accepted (s : State) : Option Nat :=
  if s.flag .i && !s.irqHoldoff then s.irqPending.head? else none

/-- `Asleep` (R312, R321): the core sleeps, the environment will do nothing more, and no request can be accepted. -/
def State.asleepForever (s : State) : Bool :=
  s.sleeping && s.envTicks.isEmpty && !(s.flag .i && !s.irqPending.isEmpty)

/-! ### Fetch -/

/-- Whether a device has an instruction (R5, U1, U2). LD and ST through Y or Z without displacement remain where
LDD and STD are absent (R229). DESIGN CHOICE (log 34): where LDD and STD are present the word with q = 0 exists too,
even if LD_ST_VARIANTS lists no plain form through that pointer; the spec says nothing of such a device. -/
def isPresent (c : Config) : Instr → Bool
  | .add _ _ => true
  | .adc _ _ => true
  | .adiw _ _ => c.has.adiwSbiw
  | .sub _ _ => true
  | .subi _ _ => true
  | .sbc _ _ => true
  | .sbci _ _ => true
  | .sbiw _ _ => c.has.adiwSbiw
  | .and _ _ => true
  | .andi _ _ => true
  | .or _ _ => true
  | .ori _ _ => true
  | .eor _ _ => true
  | .com _ => true
  | .neg _ => true
  | .sbr _ _ => true
  | .cbr _ _ => true
  | .inc _ => true
  | .dec _ => true
  | .tst _ => true
  | .clr _ => true
  | .ser _ => true
  | .mul _ _ => c.has.mul
  | .muls _ _ => c.has.mul
  | .mulsu _ _ => c.has.mul
  | .fmul _ _ => c.has.mul
  | .fmuls _ _ => c.has.mul
  | .fmulsu _ _ => c.has.mul
  | .des _ => c.has.des
  | .rjmp _ => true
  | .ijmp => c.has.ijmpIcall
  | .eijmp => c.has.eijmpEicall
  | .jmp _ => c.has.jmpCall
  | .rcall _ => true
  | .icall => c.has.ijmpIcall
  | .eicall => c.has.eijmpEicall
  | .call _ => c.has.jmpCall
  | .ret => true
  | .reti => true
  | .cpse _ _ => true
  | .cp _ _ => true
  | .cpc _ _ => true
  | .cpi _ _ => true
  | .sbrc _ _ => true
  | .sbrs _ _ => true
  | .sbic _ _ => true
  | .sbis _ _ => true
  | .brbs _ _ => true
  | .brbc _ _ => true
  | .breq _ => true
  | .brne _ => true
  | .brcs _ => true
  | .brcc _ => true
  | .brsh _ => true
  | .brlo _ => true
  | .brmi _ => true
  | .brpl _ => true
  | .brge _ => true
  | .brlt _ => true
  | .brhs _ => true
  | .brhc _ => true
  | .brts _ => true
  | .brtc _ => true
  | .brvs _ => true
  | .brvc _ => true
  | .brie _ => true
  | .brid _ => true
  | .mov _ _ => true
  | .movw _ _ => c.has.movw
  | .ldi _ _ => true
  | .lds _ _ => c.has.ldsSts
  | .ldX _ => c.has.ldForms.contains (.x, .plain)
  | .ldXInc _ => c.has.ldForms.contains (.x, .postInc)
  | .ldXDec _ => c.has.ldForms.contains (.x, .preDec)
  | .ldY _ => c.has.lddStd || c.has.ldForms.contains (.y, .plain)
  | .ldYInc _ => c.has.ldForms.contains (.y, .postInc)
  | .ldYDec _ => c.has.ldForms.contains (.y, .preDec)
  | .lddY _ q => c.has.lddStd || (q = 0 && c.has.ldForms.contains (.y, .plain))
  | .ldZ _ => c.has.lddStd || c.has.ldForms.contains (.z, .plain)
  | .ldZInc _ => c.has.ldForms.contains (.z, .postInc)
  | .ldZDec _ => c.has.ldForms.contains (.z, .preDec)
  | .lddZ _ q => c.has.lddStd || (q = 0 && c.has.ldForms.contains (.z, .plain))
  | .sts _ _ => c.has.ldsSts
  | .stX _ => c.has.stForms.contains (.x, .plain)
  | .stXInc _ => c.has.stForms.contains (.x, .postInc)
  | .stXDec _ => c.has.stForms.contains (.x, .preDec)
  | .stY _ => c.has.lddStd || c.has.stForms.contains (.y, .plain)
  | .stYInc _ => c.has.stForms.contains (.y, .postInc)
  | .stYDec _ => c.has.stForms.contains (.y, .preDec)
  | .stdY q _ => c.has.lddStd || (q = 0 && c.has.stForms.contains (.y, .plain))
  | .stZ _ => c.has.lddStd || c.has.stForms.contains (.z, .plain)
  | .stZInc _ => c.has.stForms.contains (.z, .postInc)
  | .stZDec _ => c.has.stForms.contains (.z, .preDec)
  | .stdZ q _ => c.has.lddStd || (q = 0 && c.has.stForms.contains (.z, .plain))
  | .lpmR0 => c.has.lpm
  | .lpmZ _ => c.has.lpmRd
  | .lpmZInc _ => c.has.lpmRd
  | .elpmR0 => c.has.elpm
  | .elpmZ _ => c.has.elpm
  | .elpmZInc _ => c.has.elpm
  | .spm => c.has.spm
  | .spmZInc => c.has.spmZPlus
  | .in_ _ _ => true
  | .out _ _ => true
  | .push _ => c.has.pushPop
  | .pop _ => c.has.pushPop
  | .lsl _ => true
  | .lsr _ => true
  | .rol _ => true
  | .ror _ => true
  | .asr _ => true
  | .swap _ => true
  | .bset _ => true
  | .bclr _ => true
  | .sbi _ _ => true
  | .cbi _ _ => true
  | .bst _ _ => true
  | .bld _ _ => true
  | .sec => true
  | .clc => true
  | .sen => true
  | .cln => true
  | .sez => true
  | .clz => true
  | .sei => true
  | .cli => true
  | .ses => true
  | .cls => true
  | .sev => true
  | .clv => true
  | .set => true
  | .clt => true
  | .seh => true
  | .clh => true
  | .brk => c.has.brk
  | .nop => true
  | .sleep => true
  | .wdr => true

/-- The instruction whose first word is `w` (R321, in its order of checks): unassigned words and absent
instructions are refused before the second word of a two-word instruction is fetched (R63, R91). -/
def State.decodeAt (s : State) (w : Word) : Res Instr :=
  match decodeWords w 0 with
  | none => .refused (.unassignedOpcode s.pc w)
  | some i =>
    if !isPresent s.cfg i then .refused (.unassignedOpcode s.pc w)
    else if isTwoWord w then
      s.nextWord.andThen fun k =>
        match decodeWords w k with
        | some j => .next j
        | none => .refused (.unassignedOpcode s.pc w)
    else .next i

/-- The instruction at `pc` (R325): `w <- ProgWord(pc)`, then the instruction that `w` selects. -/
def State.fetch (s : State) : Res Instr := (s.progWord s.pc.toNat).andThen fun w => s.decodeAt w

/-! ### Placing an instruction -/

/-- Program memory with a word at a word address, low byte first (R62). -/
def putProgWord (m : Memory) (a : Nat) (w : Word) : Memory :=
  memPut flashBlank (memPut flashBlank m (2 * a) (lowByte w)) (2 * a + 1) (highByte w)

/-- The machine with the program words of an instruction, numbered as the opcode table numbers them, at `pc`, and
nothing at the coming boundary that would keep it from running: no sleep, no reset request, and, where an
interrupt would be accepted, the hold-off. -/
def State.placeAtPc (s : State) (nbits w : Nat) : State :=
  let ws := tableWords nbits w
  let s' :=
    { s with
      flash := putProgWord (putProgWord s.flash s.pc.toNat ws.1) (wrapPc s.cfg (s.pc.toNat + 1)).toNat ws.2
      sleeping := false
      envTicks := match s.envTicks with
        | [] => []
        | t :: ts => { t with resetRequest := false } :: ts }
  if s'.pollEnv.accepted.isSome then { s' with irqHoldoff := true } else s'

end Sys2Proof.Machine
end

