-- ==== Sys2Proof/Machine/Arith.lean ====
section
/-! DEFINITION. Arithmetic and logic instructions (40_arithmetic_logic.md R130 to R158). -/

namespace Sys2Proof.Machine

/-- The end of an instruction that writes `Rd` and SREG. -/
def State.writeResult (s : State) (d : Reg) (v : Byte) (sreg : Byte) : Res State :=
  .next ({ s.setReg d v with sreg := sreg }.advance 1)

/-- An 8-bit addition or subtraction into `Rd`. -/
def State.writeAlu (s : State) (d : Reg) (f : Alu) : Res State := s.writeResult d f.r (putAlu s.sreg f)

/-- An 8-bit logical result into `Rd` (R124). -/
def State.writeLogic (s : State) (d : Reg) (v : Byte) : Res State := s.writeResult d v (putLogic s.sreg v)

/-- A word result into a register pair. -/
def State.writePair (s : State) (d : Reg) (v : Word) (sreg : Byte) : Res State :=
  .next ({ s.setPair d v with sreg := sreg }.advance 1)

/-- A product into R1:R0 (R126): `p` before any shift, `r` the value written. -/
def State.writeProduct (s : State) (p r : Word) : Res State := s.writePair 0 r (putMul s.sreg p r)

/-- The unsigned by unsigned product (R152). -/
def mulUU (a b : Byte) : Word := a.setWidth 16 * b.setWidth 16

/-- The signed by signed product (R153). -/
def mulSS (a b : Byte) : Word := a.signExtend 16 * b.signExtend 16

/-- The signed by unsigned product (R154). -/
def mulSU (a b : Byte) : Word := a.signExtend 16 * b.setWidth 16

/-- ADD (R130). -/
def execAdd (d r : Reg) (s : State) : Res State := s.writeAlu d (add8 (s.reg d) (s.reg r) false)

/-- ADC (R131). -/
def execAdc (d r : Reg) (s : State) : Res State := s.writeAlu d (add8 (s.reg d) (s.reg r) (s.flag .c))

/-- ADIW (R132). -/
def execAdiw (d : Reg) (k : BitVec 6) (s : State) : Res State :=
  let r := s.pair d + k.setWidth 16
  s.writePair d r (putAdiw s.sreg (s.pair d) r)

/-- SUB (R133). -/
def execSub (d r : Reg) (s : State) : Res State := s.writeAlu d (sub8 (s.reg d) (s.reg r) false)

/-- SUBI (R134). -/
def execSubi (d : Reg) (k : Byte) (s : State) : Res State := s.writeAlu d (sub8 (s.reg d) k false)

/-- SBC (R135): Z is sticky (R127). -/
def execSbc (d r : Reg) (s : State) : Res State :=
  s.writeAlu d (stickyZ (sub8 (s.reg d) (s.reg r) (s.flag .c)) (s.flag .z))

/-- SBCI (R136): Z is sticky (R127). -/
def execSbci (d : Reg) (k : Byte) (s : State) : Res State :=
  s.writeAlu d (stickyZ (sub8 (s.reg d) k (s.flag .c)) (s.flag .z))

/-- SBIW (R137). -/
def execSbiw (d : Reg) (k : BitVec 6) (s : State) : Res State :=
  let r := s.pair d - k.setWidth 16
  s.writePair d r (putSbiw s.sreg (s.pair d) r)

/-- AND (R138). -/
def execAnd (d r : Reg) (s : State) : Res State := s.writeLogic d (s.reg d &&& s.reg r)

/-- ANDI (R139). -/
def execAndi (d : Reg) (k : Byte) (s : State) : Res State := s.writeLogic d (s.reg d &&& k)

/-- OR (R140). -/
def execOr (d r : Reg) (s : State) : Res State := s.writeLogic d (s.reg d ||| s.reg r)

/-- ORI (R141). -/
def execOri (d : Reg) (k : Byte) (s : State) : Res State := s.writeLogic d (s.reg d ||| k)

/-- EOR (R142). -/
def execEor (d r : Reg) (s : State) : Res State := s.writeLogic d (s.reg d ^^^ s.reg r)

/-- COM (R143). -/
def execCom (d : Reg) (s : State) : Res State := s.writeResult d (0xFF - s.reg d) (putCom s.sreg (0xFF - s.reg d))

/-- NEG (R144). -/
def execNeg (d : Reg) (s : State) : Res State := s.writeAlu d (sub8 0x00 (s.reg d) false)

/-- SBR (R145). -/
def execSbr (d : Reg) (k : Byte) (s : State) : Res State := s.writeLogic d (s.reg d ||| k)

/-- CBR (R146): `k` is the operand as written, not its complement. -/
def execCbr (d : Reg) (k : Byte) (s : State) : Res State := s.writeLogic d (s.reg d &&& (0xFF - k))

/-- INC (R147). -/
def execInc (d : Reg) (s : State) : Res State :=
  let r := s.reg d + 1
  s.writeResult d r (putStep s.sreg (r = 0x80) r)

/-- DEC (R148). -/
def execDec (d : Reg) (s : State) : Res State :=
  let r := s.reg d - 1
  s.writeResult d r (putStep s.sreg (r = 0x7F) r)

/-- TST (R149): the register keeps its value. -/
def execTst (d : Reg) (s : State) : Res State :=
  .next ({ s with sreg := putLogic s.sreg (s.reg d) }.advance 1)

/-- CLR (R150): S, V and N cleared, Z set, C and H kept. -/
def execClr (d : Reg) (s : State) : Res State :=
  .next ((((((s.setReg d 0).setFlag .s false).setFlag .v false).setFlag .n false).setFlag .z true).advance 1)

/-- SER (R151): no flag. -/
def execSer (d : Reg) (s : State) : Res State := .next ((s.setReg d 0xFF).advance 1)

/-- MUL (R152). -/
def execMul (d r : Reg) (s : State) : Res State :=
  let p := mulUU (s.reg d) (s.reg r)
  s.writeProduct p p

/-- MULS (R153). -/
def execMuls (d r : Reg) (s : State) : Res State :=
  let p := mulSS (s.reg d) (s.reg r)
  s.writeProduct p p

/-- MULSU (R154): `Rd` signed, `Rr` unsigned. -/
def execMulsu (d r : Reg) (s : State) : Res State :=
  let p := mulSU (s.reg d) (s.reg r)
  s.writeProduct p p

/-- FMUL (R155). -/
def execFmul (d r : Reg) (s : State) : Res State :=
  let p := mulUU (s.reg d) (s.reg r)
  s.writeProduct p (p <<< 1)

/-- FMULS (R156). -/
def execFmuls (d r : Reg) (s : State) : Res State :=
  let p := mulSS (s.reg d) (s.reg r)
  s.writeProduct p (p <<< 1)

/-- FMULSU (R157). -/
def execFmulsu (d r : Reg) (s : State) : Res State :=
  let p := mulSU (s.reg d) (s.reg r)
  s.writeProduct p (p <<< 1)

/-- DES (R158): H chooses encryption or decryption; the round functions are free values (D16). -/
def execDes (k : BitVec 4) (s : State) : Res State :=
  let b := if s.flag .h then Config.desDecryptRound s.block k else Config.desEncryptRound s.block k
  .next ((s.setBlock b).advance 1)

end Sys2Proof.Machine
end

