-- ==== Sys2Proof/Machine/Bits.lean ====
section
/-! DEFINITION. Bit and bit-test instructions (43_bit_and_bit_test.md R271 to R298). -/

namespace Sys2Proof.Machine

/-- LSL (R271). -/
def execLsl (d : Reg) (s : State) : Res State :=
  let r := s.reg d <<< 1
  s.writeResult d r (putShiftLeft s.sreg (s.reg d) r)

/-- LSR (R272). -/
def execLsr (d : Reg) (s : State) : Res State :=
  let r := s.reg d >>> 1
  s.writeResult d r (putShift s.sreg r ((s.reg d).getLsbD 0))

/-- ROL (R273): C before the instruction enters bit 0. -/
def execRol (d : Reg) (s : State) : Res State :=
  let r := s.reg d <<< 1 ||| (if s.flag .c then 0x01 else 0x00)
  s.writeResult d r (putShiftLeft s.sreg (s.reg d) r)

/-- ROR (R274): C before the instruction enters bit 7. -/
def execRor (d : Reg) (s : State) : Res State :=
  let r := (if s.flag .c then 0x80 else 0x00) ||| s.reg d >>> 1
  s.writeResult d r (putShift s.sreg r ((s.reg d).getLsbD 0))

/-- ASR (R275): bit 7 keeps its value. -/
def execAsr (d : Reg) (s : State) : Res State :=
  let r := (s.reg d &&& 0x80) ||| s.reg d >>> 1
  s.writeResult d r (putShift s.sreg r ((s.reg d).getLsbD 0))

/-- SWAP (R276): no flag. -/
def execSwap (d : Reg) (s : State) : Res State :=
  .next ((s.setReg d (s.reg d <<< 4 ||| s.reg d >>> 4)).advance 1)

/-- BSET (R277): setting I that was 0 starts the hold-off. -/
def execBset (n : BitVec 3) (s : State) : Res State := .next ((s.raiseFlag (flagNumber n)).advance 1)

/-- BCLR (R278). -/
def execBclr (n : BitVec 3) (s : State) : Res State := .next ((s.setFlag (flagNumber n) false).advance 1)

/-- SBI (R279). -/
def execSbi (a : BitVec 5) (b : BitVec 3) (s : State) : Res State :=
  .next ((s.ioBitWrite a.toNat b true).advance 1)

/-- CBI (R280). -/
def execCbi (a : BitVec 5) (b : BitVec 3) (s : State) : Res State :=
  .next ((s.ioBitWrite a.toNat b false).advance 1)

/-- BST (R281). -/
def execBst (r : Reg) (b : BitVec 3) (s : State) : Res State :=
  .next ((s.setFlag .t ((s.reg r).getLsbD b.toNat)).advance 1)

/-- BLD (R282): the other seven bits keep their values. -/
def execBld (d : Reg) (b : BitVec 3) (s : State) : Res State :=
  .next ((s.setReg d (putBit (s.reg d) b (s.flag .t))).advance 1)

/-- SEC (R283). -/
def execSec (s : State) : Res State := .next ((s.setFlag .c true).advance 1)

/-- CLC (R284). -/
def execClc (s : State) : Res State := .next ((s.setFlag .c false).advance 1)

/-- SEN (R285). -/
def execSen (s : State) : Res State := .next ((s.setFlag .n true).advance 1)

/-- CLN (R286). -/
def execCln (s : State) : Res State := .next ((s.setFlag .n false).advance 1)

/-- SEZ (R287). -/
def execSez (s : State) : Res State := .next ((s.setFlag .z true).advance 1)

/-- CLZ (R288). -/
def execClz (s : State) : Res State := .next ((s.setFlag .z false).advance 1)

/-- SEI (R289): the instruction after it runs before any interrupt is taken. -/
def execSei (s : State) : Res State :=
  .next (({ s.setFlag .i true with irqHoldoff := s.irqHoldoff || !s.flag .i }).advance 1)

/-- CLI (R290). -/
def execCli (s : State) : Res State := .next ((s.setFlag .i false).advance 1)

/-- SES (R291). -/
def execSes (s : State) : Res State := .next ((s.setFlag .s true).advance 1)

/-- CLS (R292). -/
def execCls (s : State) : Res State := .next ((s.setFlag .s false).advance 1)

/-- SEV (R293). -/
def execSev (s : State) : Res State := .next ((s.setFlag .v true).advance 1)

/-- CLV (R294). -/
def execClv (s : State) : Res State := .next ((s.setFlag .v false).advance 1)

/-- SET (R295). -/
def execSet (s : State) : Res State := .next ((s.setFlag .t true).advance 1)

/-- CLT (R296). -/
def execClt (s : State) : Res State := .next ((s.setFlag .t false).advance 1)

/-- SEH (R297). -/
def execSeh (s : State) : Res State := .next ((s.setFlag .h true).advance 1)

/-- CLH (R298). -/
def execClh (s : State) : Res State := .next ((s.setFlag .h false).advance 1)

end Sys2Proof.Machine
end

