-- ==== Sys2Proof/Machine/Branch.lean ====
section
/-! DEFINITION. Branch, call, compare and skip instructions (41_branch.md R174 to R211). -/

namespace Sys2Proof.Machine

/-- A conditional branch (R170, R192): to `reltarget(k)` where the condition holds, else to the next word. -/
def State.branchIf (s : State) (cond : Bool) (k : BitVec 7) : Res State :=
  .next (if cond then s.jumpRel k.toInt else s.advance 1)

/-- A compare: the flags of a subtraction and nothing else (R185). -/
def State.compare (s : State) (f : Alu) : Res State := .next ({ s with sreg := putAlu s.sreg f }.advance 1)

/-- RJMP (R174). -/
def execRjmp (k : BitVec 12) (s : State) : Res State := .next (s.jumpRel k.toInt)

/-- IJMP (R175): EIND is not used, the bits above Z are 0. -/
def execIjmp (s : State) : Res State := .next (s.jump (s.ptr .z).toNat)

/-- `EIND[5:0] : Z` (R39, R176). -/
def State.eindZ (s : State) : Nat := s.eind.toNat % 64 * 65536 + (s.ptr .z).toNat

/-- EIJMP (R176). -/
def execEijmp (s : State) : Res State := .next (s.jump s.eindZ)

/-- JMP (R177). -/
def execJmp (k : PAddr) (s : State) : Res State := .next (s.jump k.toNat)

/-- RCALL (R178). -/
def execRcall (k : BitVec 12) (s : State) : Res State := s.callTo 1 (s.pc.toNat + 1 + k.toInt)

/-- ICALL (R179). -/
def execIcall (s : State) : Res State := s.callTo 1 (s.ptr .z).toNat

/-- EICALL (R180). -/
def execEicall (s : State) : Res State := s.callTo 1 s.eindZ

/-- CALL (R181): the return address is the word after its second word. -/
def execCall (k : PAddr) (s : State) : Res State := s.callTo 2 k.toNat

/-- RET (R182). -/
def execRet (s : State) : Res State := s.returnToPopped

/-- RETI (R183, R329). -/
def execReti (s : State) : Res State := s.interruptReturn

/-- CPSE (R184): no flag. -/
def execCpse (d r : Reg) (s : State) : Res State := s.skip (s.reg d = s.reg r)

/-- CP (R185). -/
def execCp (d r : Reg) (s : State) : Res State := s.compare (sub8 (s.reg d) (s.reg r) false)

/-- CPC (R186): Z is sticky (R127). -/
def execCpc (d r : Reg) (s : State) : Res State :=
  s.compare (stickyZ (sub8 (s.reg d) (s.reg r) (s.flag .c)) (s.flag .z))

/-- CPI (R187). -/
def execCpi (d : Reg) (k : Byte) (s : State) : Res State := s.compare (sub8 (s.reg d) k false)

/-- SBRC (R188). -/
def execSbrc (r : Reg) (b : BitVec 3) (s : State) : Res State := s.skip (!(s.reg r).getLsbD b.toNat)

/-- SBRS (R189). -/
def execSbrs (r : Reg) (b : BitVec 3) (s : State) : Res State := s.skip ((s.reg r).getLsbD b.toNat)

/-- SBIC (R190): the read is an ordinary I/O read. -/
def execSbic (a : BitVec 5) (b : BitVec 3) (s : State) : Res State :=
  let (v, s') := s.ioRead a.toNat
  s'.skip (!v.getLsbD b.toNat)

/-- SBIS (R191). -/
def execSbis (a : BitVec 5) (b : BitVec 3) (s : State) : Res State :=
  let (v, s') := s.ioRead a.toNat
  s'.skip (v.getLsbD b.toNat)

/-- BRBS (R192). -/
def execBrbs (n : BitVec 3) (k : BitVec 7) (s : State) : Res State := s.branchIf (s.flag (flagNumber n)) k

/-- BRBC (R193). -/
def execBrbc (n : BitVec 3) (k : BitVec 7) (s : State) : Res State := s.branchIf (!s.flag (flagNumber n)) k

/-- BREQ (R194). -/
def execBreq (k : BitVec 7) (s : State) : Res State := s.branchIf (s.flag .z) k

/-- BRNE (R195). -/
def execBrne (k : BitVec 7) (s : State) : Res State := s.branchIf (!s.flag .z) k

/-- BRCS (R196). -/
def execBrcs (k : BitVec 7) (s : State) : Res State := s.branchIf (s.flag .c) k

/-- BRCC (R197). -/
def execBrcc (k : BitVec 7) (s : State) : Res State := s.branchIf (!s.flag .c) k

/-- BRSH (R198). -/
def execBrsh (k : BitVec 7) (s : State) : Res State := s.branchIf (!s.flag .c) k

/-- BRLO (R199). -/
def execBrlo (k : BitVec 7) (s : State) : Res State := s.branchIf (s.flag .c) k

/-- BRMI (R200). -/
def execBrmi (k : BitVec 7) (s : State) : Res State := s.branchIf (s.flag .n) k

/-- BRPL (R201). -/
def execBrpl (k : BitVec 7) (s : State) : Res State := s.branchIf (!s.flag .n) k

/-- BRGE (R202): the stored S bit is tested. -/
def execBrge (k : BitVec 7) (s : State) : Res State := s.branchIf (!s.flag .s) k

/-- BRLT (R203): the stored S bit is tested. -/
def execBrlt (k : BitVec 7) (s : State) : Res State := s.branchIf (s.flag .s) k

/-- BRHS (R204). -/
def execBrhs (k : BitVec 7) (s : State) : Res State := s.branchIf (s.flag .h) k

/-- BRHC (R205). -/
def execBrhc (k : BitVec 7) (s : State) : Res State := s.branchIf (!s.flag .h) k

/-- BRTS (R206). -/
def execBrts (k : BitVec 7) (s : State) : Res State := s.branchIf (s.flag .t) k

/-- BRTC (R207). -/
def execBrtc (k : BitVec 7) (s : State) : Res State := s.branchIf (!s.flag .t) k

/-- BRVS (R208). -/
def execBrvs (k : BitVec 7) (s : State) : Res State := s.branchIf (s.flag .v) k

/-- BRVC (R209). -/
def execBrvc (k : BitVec 7) (s : State) : Res State := s.branchIf (!s.flag .v) k

/-- BRIE (R210). -/
def execBrie (k : BitVec 7) (s : State) : Res State := s.branchIf (s.flag .i) k

/-- BRID (R211). -/
def execBrid (k : BitVec 7) (s : State) : Res State := s.branchIf (!s.flag .i) k

end Sys2Proof.Machine
end

