-- ==== Sys2Proof/Machine/Mcu.lean ====
section
/-! DEFINITION. MCU control instructions (44_mcu_control.md R310 to R313). -/

namespace Sys2Proof.Machine

/-- BREAK (R310). The rule gives two readings: the end of the run, with pc still at the BREAK, and the hardware's
own behaviour without a debugger, an advance of pc. The device says which (log 11). -/
def execBrk (s : State) : Res State :=
  if s.cfg.breakEndsRun then .fault (.breakReached s.pc) else .next (s.advance 1)

/-- NOP (R311). -/
def execNop (s : State) : Res State := .next (s.advance 1)

/-- SLEEP (R312). -/
def execSleep (s : State) : Res State := .next { s.advance 1 with sleeping := true }

/-- WDR (R313): an output event and nothing else. -/
def execWdr (s : State) : Res State := .next ({ s with envTrace := .watchdogReset :: s.envTrace }.advance 1)

end Sys2Proof.Machine
end

