-- ==== Sys2Proof/Machine/Transfer.lean ====
section
/-! DEFINITION. Data transfer instructions (42_data_transfer.md R222 to R260). None of them writes an SREG flag,
except a store, OUT or PUSH that reaches SREG as data. -/

namespace Sys2Proof.Machine

/-- MOV (R222). -/
def execMov (d r : Reg) (s : State) : Res State := .next ((s.setReg d (s.reg r)).advance 1)

/-- MOVW (R223): both sources are read first. -/
def execMovw (d r : Reg) (s : State) : Res State := .next ((s.setPair d (s.pair r)).advance 1)

/-- LDI (R224). -/
def execLdi (d : Reg) (k : Byte) (s : State) : Res State := .next ((s.setReg d k).advance 1)

/-- LDS (R225). -/
def execLds (d : Reg) (k : Word) (s : State) : Res State := s.loadFrom d (s.eaDirect k) 2

/-- LD Rd,X (R226). -/
def execLdX (d : Reg) (s : State) : Res State := s.loadFrom d (s.ptrAddr .x) 1

/-- LD Rd,X+ (R227). -/
def execLdXInc (d : Reg) (s : State) : Res State := s.offPointerOr .x d (.ldXInc d) (s.loadInc .x d)

/-- LD Rd,-X (R228). -/
def execLdXDec (d : Reg) (s : State) : Res State := s.offPointerOr .x d (.ldXDec d) (s.loadDec .x d)

/-- LD Rd,Y (R229). -/
def execLdY (d : Reg) (s : State) : Res State := s.loadFrom d (s.ptrAddr .y) 1

/-- LD Rd,Y+ (R230). -/
def execLdYInc (d : Reg) (s : State) : Res State := s.offPointerOr .y d (.ldYInc d) (s.loadInc .y d)

/-- LD Rd,-Y (R231). -/
def execLdYDec (d : Reg) (s : State) : Res State := s.offPointerOr .y d (.ldYDec d) (s.loadDec .y d)

/-- LDD Rd,Y+q (R232). -/
def execLddY (d : Reg) (q : BitVec 6) (s : State) : Res State := s.loadFrom d (s.eaDisp .y q) 1

/-- LD Rd,Z (R233). -/
def execLdZ (d : Reg) (s : State) : Res State := s.loadFrom d (s.ptrAddr .z) 1

/-- LD Rd,Z+ (R234). -/
def execLdZInc (d : Reg) (s : State) : Res State := s.offPointerOr .z d (.ldZInc d) (s.loadInc .z d)

/-- LD Rd,-Z (R235). -/
def execLdZDec (d : Reg) (s : State) : Res State := s.offPointerOr .z d (.ldZDec d) (s.loadDec .z d)

/-- LDD Rd,Z+q (R236). -/
def execLddZ (d : Reg) (q : BitVec 6) (s : State) : Res State := s.loadFrom d (s.eaDisp .z q) 1

/-- STS k,Rr (R237). -/
def execSts (k : Word) (r : Reg) (s : State) : Res State := s.storeTo (s.eaDirect k) (s.reg r) 2

/-- ST X,Rr (R238). -/
def execStX (r : Reg) (s : State) : Res State := s.storeTo (s.ptrAddr .x) (s.reg r) 1

/-- ST X+,Rr (R239). -/
def execStXInc (r : Reg) (s : State) : Res State := s.offPointerOr .x r (.stXInc r) (s.storeInc .x r)

/-- ST -X,Rr (R240). -/
def execStXDec (r : Reg) (s : State) : Res State := s.offPointerOr .x r (.stXDec r) (s.storeDec .x r)

/-- ST Y,Rr (R241). -/
def execStY (r : Reg) (s : State) : Res State := s.storeTo (s.ptrAddr .y) (s.reg r) 1

/-- ST Y+,Rr (R242). -/
def execStYInc (r : Reg) (s : State) : Res State := s.offPointerOr .y r (.stYInc r) (s.storeInc .y r)

/-- ST -Y,Rr (R243). -/
def execStYDec (r : Reg) (s : State) : Res State := s.offPointerOr .y r (.stYDec r) (s.storeDec .y r)

/-- STD Y+q,Rr (R244). -/
def execStdY (q : BitVec 6) (r : Reg) (s : State) : Res State := s.storeTo (s.eaDisp .y q) (s.reg r) 1

/-- ST Z,Rr (R245). -/
def execStZ (r : Reg) (s : State) : Res State := s.storeTo (s.ptrAddr .z) (s.reg r) 1

/-- ST Z+,Rr (R246). -/
def execStZInc (r : Reg) (s : State) : Res State := s.offPointerOr .z r (.stZInc r) (s.storeInc .z r)

/-- ST -Z,Rr (R247). -/
def execStZDec (r : Reg) (s : State) : Res State := s.offPointerOr .z r (.stZDec r) (s.storeDec .z r)

/-- STD Z+q,Rr (R248). -/
def execStdZ (q : BitVec 6) (r : Reg) (s : State) : Res State := s.storeTo (s.eaDisp .z q) (s.reg r) 1

/-- LPM, R0 implied (R249): RAMPZ is not used. -/
def execLpmR0 (s : State) : Res State := s.loadProgram 0 (s.ptr .z).toNat

/-- LPM Rd,Z (R250). -/
def execLpmZ (d : Reg) (s : State) : Res State := s.loadProgram d (s.ptr .z).toNat

/-- LPM Rd,Z+ (R251): Z wraps modulo 2^16, RAMPZ is not changed. -/
def execLpmZInc (d : Reg) (s : State) : Res State :=
  s.offPointerOr .z d (.lpmZInc d) ((s.progByte (s.ptr .z).toNat).andThen fun v =>
    .next (((s.setReg d v).setPair (Ptr.low .z) (s.ptr .z + 1)).advance 1))

/-- ELPM, R0 implied (R252). -/
def execElpmR0 (s : State) : Res State := s.loadProgram 0 s.elpmAddr

/-- ELPM Rd,Z (R253). -/
def execElpmZ (d : Reg) (s : State) : Res State := s.loadProgram d s.elpmAddr

/-- ELPM Rd,Z+ (R254): the 24-bit address is incremented and written to RAMPZ and Z. -/
def execElpmZInc (d : Reg) (s : State) : Res State :=
  s.offPointerOr .z d (.elpmZInc d) ((s.progByte s.elpmAddr).andThen fun v =>
    let a := (s.elpmAddr + 1) % 2 ^ 24
    .next ((((s.setReg d v).setRamp .z (BitVec.ofNat 8 (a / 65536))).setPair (Ptr.low .z) (BitVec.ofNat 16 a)).advance 1))

/-- SPM (R255): refused, as the rule has it (D15). -/
def execSpm (s : State) : Res State := .refused (.spmNotModelled s.pc)

/-- SPM Z+ (R256): refused, as the rule has it (D15). -/
def execSpmZInc (s : State) : Res State := .refused (.spmNotModelled s.pc)

/-- IN (R257). -/
def execIn (d : Reg) (a : BitVec 6) (s : State) : Res State :=
  let (v, s') := s.ioRead a.toNat
  .next ((s'.setReg d v).advance 1)

/-- OUT (R258). -/
def execOut (a : BitVec 6) (r : Reg) (s : State) : Res State := .next ((s.ioWrite a.toNat (s.reg r)).advance 1)

/-- PUSH (R259). -/
def execPush (r : Reg) (s : State) : Res State := (s.push8 (s.reg r)).andThen fun s' => .next (s'.advance 1)

/-- POP (R260). -/
def execPop (d : Reg) (s : State) : Res State := s.pop8.andThen fun (v, s') => .next ((s'.setReg d v).advance 1)

end Sys2Proof.Machine
end

