-- ==== Sys2Proof/Machine/Step.lean ====
section
/-! DEFINITION. One step of the machine (60_exceptions.md R325). -/

namespace Sys2Proof.Machine

/-- The part of a step after the boundary: nothing while the core sleeps, else the instruction at `pc`. -/
def State.runInstruction (s : State) : Res State :=
  if s.sleeping then .next s else s.fetch.andThen fun i => exec i s

/-- One step (R325): the environment's inputs; a reset where it asks for one (R350); an interrupt entry where one
is accepted; else the hold-off ends and one instruction runs. -/
def step (s : State) : Host.Outcome State Fault Refusal :=
  if s.asleepForever then .fault .asleep
  else if s.tick.resetRequest then .next s.pollEnv.resetEvent
  else
    match s.pollEnv.accepted with
    | some n => s.pollEnv.interruptEntry n
    | none => { s.pollEnv with irqHoldoff := false }.runInstruction

/-- The state with an instruction, numbered as spec/opcode_table.json numbers its bits, where the next step fetches
it. -/
def State.withFetchWord (s : State) (nbits w : Nat) : State := s.placeAtPc nbits w

end Sys2Proof.Machine
end

