-- ==== Sys2Proof/Safety.lean ====
section
/-! DEFINITION. What the claims speak of: a configuration that R5 allows, the invariant of a running machine, a run
that does not stop, and the spec's own arithmetic for results and flags, written on numbers rather than on bits. -/

namespace Sys2Proof.Machine

/-! ### Sound configurations and states -/

/-- A configuration as R5, R23, R35, R40, R220, R323 and R324 allow it. -/
abbrev Config.sound (c : Config) : Prop :=
  (c.pcBits = 16 ∨ c.pcBits = 22) ∧ c.flashEnd < 2 ^ c.pcBits ∧
  8 ≤ c.spBits ∧ c.spBits ≤ 16 ∧
  32 ≤ c.ioBase ∧ c.ioBase + 64 ≤ c.sramStart ∧ c.sramStart ≤ c.ramEnd ∧
  c.hasRampd = c.hasRampx ∧ c.hasRampy = c.hasRampx ∧ (c.hasRampx = true → c.hasRampz = true) ∧
  (c.has.elpm = true → c.hasRampz = true) ∧ (c.has.eijmpEicall = true → c.hasEind = true) ∧
  [c.io.rampd, c.io.rampx, c.io.rampy, c.io.rampz, c.io.eind, c.io.spl, c.io.sph, c.io.sreg].Nodup ∧
  (∀ a ∈ [c.io.rampd, c.io.rampx, c.io.rampy, c.io.rampz, c.io.eind, c.io.spl, c.io.sph, c.io.sreg],
    32 ≤ a ∧ a ≤ 63) ∧
  (c.vectorStride = 1 ∨ c.vectorStride = 2) ∧ (∀ n ∈ c.irqVectors, 1 ≤ n)

/-- An extension register holds only bits the device implements, and none where the device lacks it (R37). -/
abbrev extensionOk (present : Bool) (bits v : Byte) : Prop := v &&& ~~~bits = 0 ∧ (present = false → v = 0)

/-- What holds of the machine at every instruction boundary: a sound configuration; pc and SP of their widths (R23,
R35); both memories in canonical form, the SRAM within its addresses (R71); the extension registers as R37 says
they read; the pending requests a set of vectors the device has (R323). -/
structure State.Inv (s : State) : Prop where
  sound : Config.sound s.cfg
  pcWidth : s.pc.toNat < 2 ^ s.cfg.pcBits
  spWidth : s.sp.toNat < 2 ^ s.cfg.spBits
  sramForm : Memory.wf sramBlank s.sram
  sramRange : ∀ c ∈ s.sram, s.cfg.sramStart ≤ c.1 ∧ c.1 ≤ s.cfg.ramEnd
  flashForm : Memory.wf flashBlank s.flash
  rampd : extensionOk s.cfg.hasRampd (keptBits s.cfg .rampd) s.rampd
  rampx : extensionOk s.cfg.hasRampx (keptBits s.cfg .rampx) s.rampx
  rampy : extensionOk s.cfg.hasRampy (keptBits s.cfg .rampy) s.rampy
  rampz : extensionOk s.cfg.hasRampz (keptBits s.cfg .rampz) s.rampz
  eind : s.cfg.hasEind = false → s.eind = 0
  pending : s.irqPending.Pairwise (· < ·)
  vectors : ∀ n ∈ s.irqPending, n ∈ s.cfg.irqVectors

/-! ### Safe runs -/

/-- The machine takes a step: it neither ends its run nor meets an instruction without meaning. -/
def State.goesOn (s : State) : Prop := ∃ t, step s = .next t

/-- `t` is reached from `s` by steps. -/
inductive Reaches : State → State → Prop where
  | refl (s : State) : Reaches s s
  | more {s t u : State} (h : Reaches s t) (h' : step t = .next u) : Reaches s u

/-! ### The spec's arithmetic -/

/-- A word address modulo 2^PC_BITS (R24). -/
def pcAt (c : Config) (n : Int) : PAddr := BitVec.ofInt 22 (n % 2 ^ c.pcBits)

/-- The address of the word `n` words after the instruction (R24). -/
def State.nextPc (s : State) (n : Nat) : PAddr := pcAt s.cfg (s.pc.toNat + n)

/-- A stack pointer value modulo 2^SP_BITS (R35). -/
def spAt (c : Config) (n : Int) : Word := BitVec.ofInt 16 (n % 2 ^ c.spBits)

/-- SREG with the bits I T H S V N Z C, most significant first (R25). -/
def sregOf (i t h s v n z c : Bool) : Byte :=
  BitVec.ofNat 8
    (128 * i.toNat + 64 * t.toNat + 32 * h.toNat + 16 * s.toNat + 8 * v.toNat + 4 * n.toNat + 2 * z.toNat + c.toNat)

/-- SREG `x` with H, V, N, Z, C written, S their rule (R30), I and T kept. -/
def arithSreg (x : Byte) (h v n z c : Bool) : Byte := sregOf (flagOf x .i) (flagOf x .t) h (n ^^ v) v n z c

/-- The number does not fit an 8-bit two's complement byte. -/
def overflows8 (n : Int) : Bool := n < -128 || 127 < n

/-- The number does not fit a 16-bit two's complement word. -/
def overflows16 (n : Int) : Bool := n < -32768 || 32767 < n

/-- The byte of `a + b + c` (R122). -/
def sumByte (a b : Byte) (c : Bool) : Byte := BitVec.ofNat 8 (a.toNat + b.toNat + c.toNat)

/-- SREG after `a + b + c`: R122 in the words "Equivalently ...". -/
def sumSreg (x a b : Byte) (c : Bool) : Byte :=
  let total := a.toNat + b.toNat + c.toNat
  arithSreg x (15 < a.toNat % 16 + b.toNat % 16 + c.toNat) (overflows8 (a.toInt + b.toInt + c.toNat))
    (128 ≤ total % 256) (total % 256 = 0) (255 < total)

/-- The byte of `a - b - c` (R123). -/
def diffByte (a b : Byte) (c : Bool) : Byte := BitVec.ofInt 8 (a.toNat - b.toNat - c.toNat)

/-- SREG after `a - b - c`: R123 in the words "Equivalently ..."; `z` is Z where the result is zero (R127). -/
def diffSreg (x a b : Byte) (c z : Bool) : Byte :=
  let r := (diffByte a b c).toNat
  arithSreg x (a.toNat % 16 < b.toNat % 16 + c.toNat) (overflows8 (a.toInt - b.toInt - c.toNat))
    (128 ≤ r) (r = 0 && z) (a.toNat < b.toNat + c.toNat)

/-- SREG after a logical result `r`: R124. -/
def logicSreg (x r : Byte) : Byte := arithSreg x (flagOf x .h) false (128 ≤ r.toNat) (r = 0) (flagOf x .c)

/-- SREG with V, N, Z, C of a 16-bit result `r`, H kept (R125). -/
def wordSreg (x : Byte) (v : Bool) (r : Word) (c : Bool) : Byte :=
  arithSreg x (flagOf x .h) v (32768 ≤ r.toNat) (r = 0) c

/-- SREG after a multiply: only C and Z written (R126). -/
def productSreg (x : Byte) (c z : Bool) : Byte :=
  sregOf (flagOf x .i) (flagOf x .t) (flagOf x .h) (flagOf x .s) (flagOf x .v) (flagOf x .n) z c

/-- SREG after a shift or rotate with result `r`, `c` shifted out and `h` for H: R270. -/
def shiftSreg (x : Byte) (h : Bool) (r : Nat) (c : Bool) : Byte :=
  arithSreg x h ((128 ≤ r : Bool) ^^ c) (128 ≤ r) (r = 0) c

/-! ### Places and stack room -/

/-- Something stands at the data address (R71). -/
def State.mapped (s : State) (a : Nat) : Prop := placeOf s.cfg a ≠ .nothing

/-- The `n` bytes from `SP - (n - 1)` to `SP` are SRAM: room for a push of `n` bytes that meets no register. -/
abbrev State.roomBelow (s : State) (n : Nat) : Prop :=
  Config.sound s.cfg ∧ s.sp.toNat < 2 ^ s.cfg.spBits ∧ s.cfg.sramStart + n ≤ s.sp.toNat + 1 ∧ s.sp.toNat ≤ s.cfg.ramEnd

/-- The `n` bytes from `SP + 1` to `SP + n` are SRAM: a pop of `n` bytes that meets no register. -/
abbrev State.bytesAbove (s : State) (n : Nat) : Prop :=
  Config.sound s.cfg ∧ s.sp.toNat + n < 2 ^ s.cfg.spBits ∧ s.cfg.sramStart ≤ s.sp.toNat + 1 ∧
    s.sp.toNat + n ≤ s.cfg.ramEnd

/-- The instruction is one of those that write the data space: the stores, PUSH and the calls (R68). OUT, SBI and CBI
write an I/O location. -/
def writesData : Instr → Bool
  | .sts _ _ | .stX _ | .stXInc _ | .stXDec _ | .stY _ | .stYInc _ | .stYDec _ | .stdY _ _ | .stZ _ | .stZInc _
  | .stZDec _ | .stdZ _ _ | .push _ | .rcall _ | .icall | .eicall | .call _ => true
  | _ => false

end Sys2Proof.Machine
end

