-- ==== Sys2Proof/Certificates/Slice0/Obligations.lean ====
section
/-! DEFINITION. The statements to prove about the model. Each docstring names the rules of the spec it formalises;
OBLIGATIONS.json says which statements formalise a rule whole. -/

open Sys2Proof Sys2Proof.Machine

/-! ### Encoding -/

/-- R62, R63, R90 to R110, R114: the bytes of every well-formed instruction, at the front of any image, decode to that
instruction, or to the core instruction it is another name of, with every operand as written. -/
def Obligations.DecodeEncode : Prop :=
  ∀ (i : Instr) (rest : List Byte), i.wf = true → decode (encodeBytes i ++ rest) = .ok (i.parent, rest)

/-- R93 to R112: the words of whatever is decoded are the words decoded: no bit of a word is dropped, and no two
words stand for one instruction. The decoder answers core instructions only (R114). -/
def Obligations.EncodeDecode : Prop :=
  ∀ (w k : Word) (i : Instr), decodeWords w k = some i →
    encode i = (if isTwoWord w then [w, k] else [w]) ∧ i.parent = i

/-- R113: the first words that are no instruction are exactly those of the rule's table. -/
def Obligations.UnassignedWords : Prop :=
  ∀ w k : Word, decodeWords w k = none ↔
    (w &&& 0xFF00 = 0x0000 ∧ w ≠ 0x0000) ∨
    (w &&& 0xFE0F = 0x9003 ∨ w &&& 0xFE0F = 0x9008 ∨ w &&& 0xFE0F = 0x900B) ∨
    (w &&& 0xFE0F = 0x9203 ∨ w &&& 0xFE0C = 0x9204 ∨ w &&& 0xFE0F = 0x9208 ∨ w &&& 0xFE0F = 0x920B) ∨
    w &&& 0xFE0F = 0x9404 ∨
    (w &&& 0xFE0F = 0x9409 ∧ w ≠ 0x9409 ∧ w ≠ 0x9419 ∧ w ≠ 0x9509 ∧ w ≠ 0x9519) ∨
    (w &&& 0xFF0F = 0x9508 ∧ (w &&& 0x00F0) >>> 4 ∈ ([2, 3, 4, 5, 6, 7, 11] : List Word)) ∨
    w &&& 0xFF0F = 0x950B ∨
    w &&& 0xF808 = 0xF808

/-- R90, R91: LDS, STS, JMP and CALL are the only two-word instructions, and the first word tells them. -/
def Obligations.TwoWordInstructions : Prop :=
  ∀ (w k : Word) (i : Instr), decodeWords w k = some i →
    (i.words = 2 ↔ w &&& 0xFC0F = 0x9000 ∨ w &&& 0xFE0C = 0x940C) ∧
    (i.words = 2 ↔
      (∃ d a, i = .lds d a) ∨ (∃ a r, i = .sts a r) ∨ (∃ a, i = .jmp a) ∨ ∃ a, i = .call a) ∧
    (i.words = 1 ∨ i.words = 2)

/-- Words of the spec's own examples, one family or more each, decode to the instructions they stand for. -/
def Obligations.SampleWordsDecode : Prop :=
  decodeWords 0x0C12 0 = some (.add 1 2) ∧ decodeWords 0x1C31 0 = some (.adc 3 1) ∧
  decodeWords 0x9601 0 = some (.adiw 24 1) ∧ decodeWords 0x96FF 0 = some (.adiw 30 63) ∧
  decodeWords 0x401F 0 = some (.sbci 17 0x0F) ∧ decodeWords 0x0389 0 = some (.fmulsu 16 17) ∧
  decodeWords 0xF7E9 0 = some (.brbc 1 (-3)) ∧ decodeWords 0x940D 0x2345 = some (.jmp 0x012345) ∧
  decodeWords 0x9020 0x0100 = some (.lds 2 0x0100) ∧ decodeWords 0xAC47 0 = some (.lddZ 4 63) ∧
  decodeWords 0xB79F 0 = some (.in_ 25 0x3F) ∧ decodeWords 0x9AC3 0 = some (.sbi 0x18 3) ∧
  decodeWords 0x01FC 0 = some (.movw 30 24) ∧ decodeWords 0x9588 0 = some .sleep

/-- R114: an instruction that is another name of a core instruction's word does exactly what that core instruction
does, although its meaning is written from its own rule. -/
def Obligations.OtherNamesAgree : Prop := ∀ (i : Instr) (s : State), exec i s = exec i.parent s

/-! ### Arithmetic and logic -/

/-- R122, R130, R131: ADD and ADC, with the flags as facts about numbers. -/
def Obligations.AddResult : Prop :=
  ∀ (s : State) (d r : Reg),
    exec (.add d r) s = .next { s with
      regs := s.regs.set d (sumByte (s.reg d) (s.reg r) false) d.isLt
      sreg := sumSreg s.sreg (s.reg d) (s.reg r) false
      pc := s.nextPc 1 } ∧
    exec (.adc d r) s = .next { s with
      regs := s.regs.set d (sumByte (s.reg d) (s.reg r) (s.flag .c)) d.isLt
      sreg := sumSreg s.sreg (s.reg d) (s.reg r) (s.flag .c)
      pc := s.nextPc 1 }

/-- R123, R127, R133 to R136, R144, R185 to R187: SUB, SUBI, SBC, SBCI and NEG, with the flags as facts about numbers;
CP, CPC and CPI write the same flags and nothing else; SBC, SBCI and CPC keep a clear Z. -/
def Obligations.SubtractResult : Prop :=
  ∀ (s : State) (d r : Reg) (k : Byte),
    exec (.sub d r) s = .next { s with
      regs := s.regs.set d (diffByte (s.reg d) (s.reg r) false) d.isLt
      sreg := diffSreg s.sreg (s.reg d) (s.reg r) false true
      pc := s.nextPc 1 } ∧
    exec (.subi d k) s = .next { s with
      regs := s.regs.set d (diffByte (s.reg d) k false) d.isLt
      sreg := diffSreg s.sreg (s.reg d) k false true
      pc := s.nextPc 1 } ∧
    exec (.sbc d r) s = .next { s with
      regs := s.regs.set d (diffByte (s.reg d) (s.reg r) (s.flag .c)) d.isLt
      sreg := diffSreg s.sreg (s.reg d) (s.reg r) (s.flag .c) (s.flag .z)
      pc := s.nextPc 1 } ∧
    exec (.sbci d k) s = .next { s with
      regs := s.regs.set d (diffByte (s.reg d) k (s.flag .c)) d.isLt
      sreg := diffSreg s.sreg (s.reg d) k (s.flag .c) (s.flag .z)
      pc := s.nextPc 1 } ∧
    exec (.neg d) s = .next { s with
      regs := s.regs.set d (diffByte 0 (s.reg d) false) d.isLt
      sreg := diffSreg s.sreg 0 (s.reg d) false true
      pc := s.nextPc 1 } ∧
    exec (.cp d r) s =
      .next { s with sreg := diffSreg s.sreg (s.reg d) (s.reg r) false true, pc := s.nextPc 1 } ∧
    exec (.cpc d r) s =
      .next { s with sreg := diffSreg s.sreg (s.reg d) (s.reg r) (s.flag .c) (s.flag .z), pc := s.nextPc 1 } ∧
    exec (.cpi d k) s =
      .next { s with sreg := diffSreg s.sreg (s.reg d) k false true, pc := s.nextPc 1 }

/-- R21, R61: a register pair is written and read low byte in the lower register, and no other register changes. -/
def Obligations.RegisterPair : Prop :=
  ∀ (s : State) (d : Reg) (v : Word), d.val % 2 = 0 →
    (s.setPair d v).pair d = v ∧
    ((s.setPair d v).reg d).toNat = v.toNat % 256 ∧
    ((s.setPair d v).reg (highOf d)).toNat = v.toNat / 256 ∧
    (highOf d).val = d.val + 1 ∧
    (∀ e : Reg, e ≠ d → e ≠ highOf d → (s.setPair d v).reg e = s.reg e) ∧
    { s.setPair d v with regs := s.regs } = s

/-- R125, R132, R137: ADIW and SBIW over the whole pair, with the flags as facts about numbers; H is kept. -/
def Obligations.WordAddSubtract : Prop :=
  ∀ (s : State) (d : Reg) (k : BitVec 6), topPair d = true →
    exec (.adiw d k) s = .next { s.setPair d (BitVec.ofNat 16 ((s.pair d).toNat + k.toNat)) with
      sreg := wordSreg s.sreg (overflows16 ((s.pair d).toInt + k.toNat))
        (BitVec.ofNat 16 ((s.pair d).toNat + k.toNat)) (65535 < (s.pair d).toNat + k.toNat)
      pc := s.nextPc 1 } ∧
    exec (.sbiw d k) s = .next { s.setPair d (BitVec.ofInt 16 ((s.pair d).toNat - k.toNat)) with
      sreg := wordSreg s.sreg (overflows16 ((s.pair d).toInt - k.toNat))
        (BitVec.ofInt 16 ((s.pair d).toNat - k.toNat)) ((s.pair d).toNat < k.toNat)
      pc := s.nextPc 1 }

/-- R124, R138 to R142, R145, R146, R149, R150: the logical instructions clear V, set N, Z and S from the result, and
keep H and C. -/
def Obligations.LogicResult : Prop :=
  ∀ (s : State) (d r : Reg) (k : Byte),
    exec (.and d r) s = .next { s with
      regs := s.regs.set d (s.reg d &&& s.reg r) d.isLt
      sreg := logicSreg s.sreg (s.reg d &&& s.reg r), pc := s.nextPc 1 } ∧
    exec (.andi d k) s = .next { s with
      regs := s.regs.set d (s.reg d &&& k) d.isLt, sreg := logicSreg s.sreg (s.reg d &&& k), pc := s.nextPc 1 } ∧
    exec (.or d r) s = .next { s with
      regs := s.regs.set d (s.reg d ||| s.reg r) d.isLt
      sreg := logicSreg s.sreg (s.reg d ||| s.reg r), pc := s.nextPc 1 } ∧
    exec (.ori d k) s = .next { s with
      regs := s.regs.set d (s.reg d ||| k) d.isLt, sreg := logicSreg s.sreg (s.reg d ||| k), pc := s.nextPc 1 } ∧
    exec (.eor d r) s = .next { s with
      regs := s.regs.set d (s.reg d ^^^ s.reg r) d.isLt
      sreg := logicSreg s.sreg (s.reg d ^^^ s.reg r), pc := s.nextPc 1 } ∧
    exec (.sbr d k) s = .next { s with
      regs := s.regs.set d (s.reg d ||| k) d.isLt, sreg := logicSreg s.sreg (s.reg d ||| k), pc := s.nextPc 1 } ∧
    exec (.cbr d k) s = .next { s with
      regs := s.regs.set d (s.reg d &&& ~~~k) d.isLt
      sreg := logicSreg s.sreg (s.reg d &&& ~~~k), pc := s.nextPc 1 } ∧
    exec (.tst d) s = .next { s with sreg := logicSreg s.sreg (s.reg d), pc := s.nextPc 1 } ∧
    exec (.clr d) s = .next { s with
      regs := s.regs.set d 0 d.isLt, sreg := logicSreg s.sreg 0, pc := s.nextPc 1 }

/-- R143, R147, R148: COM sets C and keeps H; INC and DEC keep C and H, and V is the overflow of the step by one. -/
def Obligations.ComIncDecResult : Prop :=
  ∀ (s : State) (d : Reg),
    exec (.com d) s = .next { s with
      regs := s.regs.set d (~~~s.reg d) d.isLt
      sreg := arithSreg s.sreg (s.flag .h) false (128 ≤ 255 - (s.reg d).toNat) ((s.reg d).toNat = 255) true
      pc := s.nextPc 1 } ∧
    exec (.inc d) s = .next { s with
      regs := s.regs.set d (sumByte (s.reg d) 1 false) d.isLt
      sreg := arithSreg s.sreg (s.flag .h) (overflows8 ((s.reg d).toInt + 1))
        (128 ≤ ((s.reg d).toNat + 1) % 256) (((s.reg d).toNat + 1) % 256 = 0) (s.flag .c)
      pc := s.nextPc 1 } ∧
    exec (.dec d) s = .next { s with
      regs := s.regs.set d (diffByte (s.reg d) 1 false) d.isLt
      sreg := arithSreg s.sreg (s.flag .h) (overflows8 ((s.reg d).toInt - 1))
        (128 ≤ ((s.reg d).toNat + 255) % 256) ((s.reg d).toNat = 1) (s.flag .c)
      pc := s.nextPc 1 }

/-- R126, R152 to R157: the multiplies write the product, the fractional ones twice the product modulo 2^16, to R1:R0;
C is the product's top bit and Z is 1 exactly when the product is zero (R155 derives that for the fractional ones). -/
def Obligations.MultiplyResult : Prop :=
  ∀ (s : State) (d r : Reg),
    let uu : Nat := (s.reg d).toNat * (s.reg r).toNat
    let ss : Int := (s.reg d).toInt * (s.reg r).toInt
    let su : Int := (s.reg d).toInt * ((s.reg r).toNat : Int)
    let writes (i : Instr) (v : Word) (c z : Bool) : Prop :=
      exec i s = .next { s.setPair 0 v with sreg := productSreg s.sreg c z, pc := s.nextPc 1 }
    writes (.mul d r) (BitVec.ofNat 16 uu) (32768 ≤ uu) (uu = 0) ∧
    writes (.muls d r) (BitVec.ofInt 16 ss) (ss < 0) (ss = 0) ∧
    writes (.mulsu d r) (BitVec.ofInt 16 su) (su < 0) (su = 0) ∧
    writes (.fmul d r) (BitVec.ofNat 16 (2 * uu)) (32768 ≤ uu) (uu = 0) ∧
    writes (.fmuls d r) (BitVec.ofInt 16 (2 * ss)) (ss < 0) (ss = 0) ∧
    writes (.fmulsu d r) (BitVec.ofInt 16 (2 * su)) (su < 0) (su = 0)

/-- R158: DES replaces R15:R0, R15 most significant, by what the round function H chooses gives, and changes nothing
else but pc. The round functions are free (log 16): the statement holds whatever they are. -/
def Obligations.DesReplacesBlock : Prop :=
  ∀ (s : State) (k : BitVec 4), ∃ (t : State) (block result : BitVec 128),
    exec (.des k) s = .next t ∧
    result = (if s.flag .h then Config.desDecryptRound block k else Config.desEncryptRound block k) ∧
    (∀ e : Reg, e.val < 16 → block.toNat / 256 ^ e.val % 256 = (s.reg e).toNat ∧
      result.toNat / 256 ^ e.val % 256 = (t.reg e).toNat) ∧
    (∀ e : Reg, 16 ≤ e.val → t.reg e = s.reg e) ∧
    { t with regs := s.regs } = { s with pc := s.nextPc 1 }

/-- R127, R185, R186, R212: CP of the low bytes and CPC of the high bytes compare two 16-bit values: C says lower
unsigned, S lower signed, Z equal. -/
def Obligations.SixteenBitCompare : Prop :=
  ∀ (s t u : State) (dl dh rl rh : Reg), exec (.cp dl rl) s = .next t → exec (.cpc dh rh) t = .next u →
    (u.flag .c = true ↔
      (s.reg dh).toNat * 256 + (s.reg dl).toNat < (s.reg rh).toNat * 256 + (s.reg rl).toNat) ∧
    (u.flag .s = true ↔ (s.reg dh ++ s.reg dl : Word).toInt < (s.reg rh ++ s.reg rl : Word).toInt) ∧
    (u.flag .z = true ↔ s.reg dh = s.reg rh ∧ s.reg dl = s.reg rl) ∧
    u.regs = s.regs

/-! ### Jumps, branches and skips -/

/-- R170, R174 to R177: RJMP, IJMP, EIJMP and JMP change pc and nothing else. -/
def Obligations.JumpTargets : Prop :=
  ∀ (s : State) (k : BitVec 12) (a : PAddr),
    exec (.rjmp k) s = .next { s with pc := pcAt s.cfg (s.pc.toNat + 1 + k.toInt) } ∧
    exec .ijmp s = .next { s with pc := pcAt s.cfg ((s.reg 31).toNat * 256 + (s.reg 30).toNat) } ∧
    exec .eijmp s = .next { s with
      pc := pcAt s.cfg (s.eind.toNat % 64 * 65536 + (s.reg 31).toNat * 256 + (s.reg 30).toNat) } ∧
    exec (.jmp a) s = .next { s with pc := pcAt s.cfg a.toNat }

/-- R25, R170, R192 to R211: BRBS and BRBC test the numbered bit of SREG, the eighteen named branches the bit and the
value their rules name; all change pc alone. -/
def Obligations.BranchResult : Prop :=
  ∀ (s : State) (n : BitVec 3) (k : BitVec 7),
    ∀ b ∈ ([(.brbs n k, n.toNat, true), (.brbc n k, n.toNat, false), (.breq k, 1, true), (.brne k, 1, false),
      (.brcs k, 0, true), (.brcc k, 0, false), (.brsh k, 0, false), (.brlo k, 0, true), (.brmi k, 2, true),
      (.brpl k, 2, false), (.brge k, 4, false), (.brlt k, 4, true), (.brhs k, 5, true), (.brhc k, 5, false),
      (.brts k, 6, true), (.brtc k, 6, false), (.brvs k, 3, true), (.brvc k, 3, false), (.brie k, 7, true),
      (.brid k, 7, false)] : List (Instr × Nat × Bool)),
    exec b.1 s = .next { s with
      pc := if s.sreg.getLsbD b.2.1 = b.2.2 then pcAt s.cfg (s.pc.toNat + 1 + k.toInt) else s.nextPc 1 }

/-- R185, R198, R199, R202, R203, R194, R195, R212: after CP Rd,Rr the branches of the Conditional Branch Summary go
where the comparison of the two registers says. -/
def Obligations.BranchesAfterCompare : Prop :=
  ∀ (s t : State) (d r : Reg) (k : BitVec 7), exec (.cp d r) s = .next t →
    let goes (i : Instr) (p : Prop) : Prop := ∃ u, exec i t = .next u ∧
      (p → u.pc = pcAt s.cfg (t.pc.toNat + 1 + k.toInt)) ∧ (¬p → u.pc = t.nextPc 1)
    goes (.brlo k) ((s.reg d).toNat < (s.reg r).toNat) ∧ goes (.brsh k) ((s.reg r).toNat ≤ (s.reg d).toNat) ∧
    goes (.brlt k) ((s.reg d).toInt < (s.reg r).toInt) ∧ goes (.brge k) ((s.reg r).toInt ≤ (s.reg d).toInt) ∧
    goes (.breq k) (s.reg d = s.reg r) ∧ goes (.brne k) (s.reg d ≠ s.reg r)

/-- R79, R171, R184, R188 to R191: the five skips go on where the condition fails; where it holds they pass the next
instruction, one word or two; where its first word would lie above FLASHEND they are refused. SBIC and SBIS read their I/O
location once first, with whatever that does. Nothing else but pc changes. -/
def Obligations.SkipResult : Prop :=
  ∀ (s : State) (d r : Reg) (a : BitVec 5) (b : BitVec 3),
    let next := (s.nextPc 1).toNat
    let v := (s.ioRead a.toNat).1
    let skips (i : Instr) (s' : State) (cond : Prop) : Prop :=
      (¬cond → exec i s = .next { s' with pc := s.nextPc 1 }) ∧
      (cond → next ≤ s.cfg.flashEnd → exec i s = .next { s' with
        pc := if isTwoWord (s.flashAt (2 * next + 1) ++ s.flashAt (2 * next)) then s.nextPc 3 else s.nextPc 2 }) ∧
      (cond → s.cfg.flashEnd < next → exec i s = .refused (.unmappedProgram next))
    skips (.cpse d r) s (s.reg d = s.reg r) ∧
    skips (.sbrc r b) s ((s.reg r).toNat / 2 ^ b.toNat % 2 = 0) ∧
    skips (.sbrs r b) s ((s.reg r).toNat / 2 ^ b.toNat % 2 = 1) ∧
    skips (.sbic a b) (s.ioRead a.toNat).2 (v.toNat / 2 ^ b.toNat % 2 = 0) ∧
    skips (.sbis a b) (s.ioRead a.toNat).2 (v.toNat / 2 ^ b.toNat % 2 = 1)

/-! ### Calls, returns and the stack -/

/-- R64, R172, R178 to R181: RCALL, ICALL, EICALL and CALL push the address of the next instruction on a stack in
SRAM, most significant byte at the lowest address, lower SP by RET_BYTES and go to their target; no other byte, no
register and no flag changes. -/
def Obligations.CallsPushReturnAddress : Prop :=
  ∀ (s : State) (k : BitVec 12) (a : PAddr), s.roomBelow (retBytes s.cfg) → Memory.wf sramBlank s.sram →
    let calls (i : Instr) (target : PAddr) : Prop := ∃ m, exec i s = .next { s with
        sram := m, sp := BitVec.ofNat 16 (s.sp.toNat - retBytes s.cfg), pc := target } ∧
      (∀ j < retBytes s.cfg,
        (memGet sramBlank m (s.sp.toNat - j)).toNat = (s.nextPc i.words).toNat / 256 ^ j % 256) ∧
      ∀ b, (b + retBytes s.cfg ≤ s.sp.toNat ∨ s.sp.toNat < b) → memGet sramBlank m b = s.sramAt b
    calls (.rcall k) (pcAt s.cfg (s.pc.toNat + 1 + k.toInt)) ∧
    calls .icall (pcAt s.cfg ((s.reg 31).toNat * 256 + (s.reg 30).toNat)) ∧
    calls .eicall (pcAt s.cfg (s.eind.toNat % 64 * 65536 + (s.reg 31).toNat * 256 + (s.reg 30).toNat)) ∧
    calls (.call a) (pcAt s.cfg a.toNat)

/-- R172, R178 to R181, wherever the stack stands: a call does its push and, where that succeeds, only moves pc; where
the push meets an address outside the data map, the call is refused there. That ICALL and EICALL take their target from
the state before the push, also where the stack overlaps R30, R31 or EIND, is the model's choice: log 20, DEDUCED from
R120 ("All operand values are read before any result is written"); the pseudocode of R179 and R180 pushes first. What a
push does where it writes SPL or SPH is log 19's choice. -/
def Obligations.CallsOnAnyStack : Prop :=
  ∀ (s : State) (k : BitVec 12) (a : PAddr),
    let calls (i : Instr) (target : PAddr) : Prop :=
      (∀ s', s.pushRet (s.nextPc i.words) = .next s' → exec i s = .next { s' with pc := target }) ∧
      (∀ f, s.pushRet (s.nextPc i.words) = .refused f → exec i s = .refused f)
    calls (.rcall k) (pcAt s.cfg (s.pc.toNat + 1 + k.toInt)) ∧
    calls .icall (pcAt s.cfg ((s.reg 31).toNat * 256 + (s.reg 30).toNat)) ∧
    calls .eicall (pcAt s.cfg (s.eind.toNat % 64 * 65536 + (s.reg 31).toNat * 256 + (s.reg 30).toNat)) ∧
    calls (.call a) (pcAt s.cfg a.toNat)

/-- R173, R182, R183, R329: RET and RETI raise SP and read at it once for each byte of the return address, most
significant byte first, wherever in the data space the stack stands, and go there; RETI also sets I and the hold-off.
The first of those reads that leaves the data map is where they are refused. On a stack in SRAM the address is made of
the bytes above SP, and nothing else changes. -/
def Obligations.ReturnsPopAddress : Prop :=
  ∀ s : State,
    let slot (j : Nat) : Word := spAt s.cfg (s.sp.toNat + j)
    let pops (t : State) (j : Nat) (v : Byte) (u : State) : Prop :=
      { t with sp := slot j }.memRead (slot j).toNat = .next (v, u)
    let returns (u : State) (address : Nat) : Prop :=
      exec .ret s = .next { u with pc := pcAt s.cfg address } ∧
      exec .reti s = .next { u with pc := pcAt s.cfg address, sreg := u.sreg ||| 0x80, irqHoldoff := true }
    let stops (j : Nat) : Prop := ¬s.mapped (slot j).toNat →
      exec .ret s = .refused (.unmappedData (slot j).toNat) ∧
      exec .reti s = .refused (.unmappedData (slot j).toNat)
    (retBytes s.cfg = 2 → s.mapped (slot 1).toNat → s.mapped (slot 2).toNat → ∃ v1 v2 t1 t2,
      pops s 1 v1 t1 ∧ pops t1 2 v2 t2 ∧ returns t2 (v1.toNat * 256 + v2.toNat)) ∧
    (retBytes s.cfg = 3 → s.mapped (slot 1).toNat → s.mapped (slot 2).toNat → s.mapped (slot 3).toNat →
      ∃ v1 v2 v3 t1 t2 t3, pops s 1 v1 t1 ∧ pops t1 2 v2 t2 ∧ pops t2 3 v3 t3 ∧
        returns t3 (v1.toNat * 65536 + v2.toNat * 256 + v3.toNat)) ∧
    stops 1 ∧ (s.mapped (slot 1).toNat → stops 2) ∧
    (retBytes s.cfg = 3 → s.mapped (slot 1).toNat → s.mapped (slot 2).toNat → stops 3) ∧
    (s.bytesAbove (retBytes s.cfg) →
      let at1 (j : Nat) : Nat := (s.sramAt (s.sp.toNat + j)).toNat
      returns { s with sp := BitVec.ofNat 16 (s.sp.toNat + retBytes s.cfg) }
        (if retBytes s.cfg = 3 then at1 1 * 65536 + at1 2 * 256 + at1 3 else at1 1 * 256 + at1 2))

/-- R64, R172, R173, R181, R182: a RET straight after a CALL comes back to the word after the CALL's second word, with
SP, every register and every flag as before, for either size of return address. -/
def Obligations.ReturnUndoesCall : Prop :=
  ∀ (s : State) (a : PAddr), s.roomBelow (retBytes s.cfg) → Memory.wf sramBlank s.sram →
    ∃ t u, exec (.call a) s = .next t ∧ exec .ret t = .next u ∧
      u = { s with sram := t.sram, pc := s.nextPc 2 }

/-- R172, R173, R259, R260: PUSH writes the register at SP, wherever in the data space that is, and lowers SP; POP
raises SP and loads the register from there; outside the map they are refused. Where SP is the address of SPL or SPH,
that PUSH lowers the SP that its own write has left, and not the SP before it, is the model's choice: log 19, DEDUCED
from the order of R172's pseudocode; R120 ("All operand values are read before any result is written") would lower the
SP before. -/
def Obligations.PushPopResult : Prop :=
  ∀ (s : State) (r : Reg),
    let above := spAt s.cfg (s.sp.toNat + 1)
    (s.mapped s.sp.toNat → ∃ s', s.memWrite s.sp.toNat (s.reg r) = .next s' ∧
      exec (.push r) s = .next { s' with sp := spAt s.cfg (s'.sp.toNat - 1), pc := s.nextPc 1 }) ∧
    (¬s.mapped s.sp.toNat → exec (.push r) s = .refused (.unmappedData s.sp.toNat)) ∧
    (s.mapped above.toNat → ∃ v s', { s with sp := above }.memRead above.toNat = .next (v, s') ∧
      exec (.pop r) s = .next { s' with regs := s'.regs.set r v r.isLt, pc := s.nextPc 1 }) ∧
    (¬s.mapped above.toNat → exec (.pop r) s = .refused (.unmappedData above.toNat))

/-- R172, R173: on a stack in SRAM a POP gives back what the PUSH before it stored, SP is as before, and no other
byte of SRAM has changed. -/
def Obligations.PopUndoesPush : Prop :=
  ∀ (s : State) (r d : Reg), s.roomBelow 1 → Memory.wf sramBlank s.sram →
    ∃ t u, exec (.push r) s = .next t ∧ exec (.pop d) t = .next u ∧ u.sp = s.sp ∧
      u.regs = s.regs.set d (s.reg r) d.isLt ∧ ∀ b, b ≠ s.sp.toNat → u.sramAt b = s.sramAt b

/-! ### Data transfer -/

/-- R222 to R224, R151, R276: MOV, MOVW, LDI, SER and SWAP write their register or pair and no flag. -/
def Obligations.RegisterMoves : Prop :=
  ∀ (s : State) (d r : Reg) (k : Byte),
    exec (.mov d r) s = .next { s with regs := s.regs.set d (s.reg r) d.isLt, pc := s.nextPc 1 } ∧
    exec (.movw d r) s = .next { s.setPair d (s.pair r) with pc := s.nextPc 1 } ∧
    exec (.ldi d k) s = .next { s with regs := s.regs.set d k d.isLt, pc := s.nextPc 1 } ∧
    exec (.ser d) s = .next { s with regs := s.regs.set d 255 d.isLt, pc := s.nextPc 1 } ∧
    exec (.swap d) s = .next { s with
      regs := s.regs.set d (BitVec.ofNat 8 ((s.reg d).toNat % 16 * 16 + (s.reg d).toNat / 16)) d.isLt
      pc := s.nextPc 1 }

/-- R77, R78: the chain of tests that says what stands at a data address, for a read and for a write. -/
def Obligations.DataSpaceMap : Prop :=
  ∀ (s : State) (a : Nat) (v : Byte),
    s.memRead a =
      (if h : s.cfg.regsInDataSpace = true ∧ a ≤ 31 then .next (s.regs[a], s)
       else if s.cfg.ioBase ≤ a ∧ a ≤ s.cfg.ioBase + 63 then .next (s.ioRead (a - s.cfg.ioBase))
       else if s.cfg.ioBase + 64 ≤ a ∧ a < s.cfg.sramStart then .next (s.envRead (.ext a))
       else if s.cfg.sramStart ≤ a ∧ a ≤ s.cfg.ramEnd then .next (s.sramAt a, s)
       else .refused (.unmappedData a)) ∧
    s.memWrite a v =
      (if h : s.cfg.regsInDataSpace = true ∧ a ≤ 31 then .next { s with regs := s.regs.set a v }
       else if s.cfg.ioBase ≤ a ∧ a ≤ s.cfg.ioBase + 63 then .next (s.ioWrite (a - s.cfg.ioBase) v)
       else if s.cfg.ioBase + 64 ≤ a ∧ a < s.cfg.sramStart then .next (s.envWrite (.ext a) v)
       else if s.cfg.sramStart ≤ a ∧ a ≤ s.cfg.ramEnd then .next { s with sram := memPut sramBlank s.sram a v }
       else .refused (.unmappedData a))

/-- R37, R220: the addresses of the addressing modes, on a device with 16-bit data addresses and on one with the RAMP
registers; `setptr` writes the low 16 bits of the address to the pointer and, on a device with the RAMP registers,
bits 23 to 16 to the pointer's RAMP register as far as the device implements them (log 22). -/
def Obligations.PointerAddresses : Prop :=
  ∀ (s : State) (p : Ptr) (q : BitVec 6) (k : Word) (n : Nat),
    (s.cfg.hasRampx = false →
      s.ptrAddr p = (s.ptr p).toNat ∧ s.eaDisp p q = ((s.ptr p).toNat + q.toNat) % 65536 ∧
      s.incAddr p = ((s.ptr p).toNat + 1) % 65536 ∧ s.decAddr p = ((s.ptr p).toNat + 65535) % 65536 ∧
      s.eaDirect k = k.toNat) ∧
    (s.cfg.hasRampx = true →
      let a := (s.rampOf p).toNat * 65536 + (s.ptr p).toNat
      s.ptrAddr p = a ∧ s.eaDisp p q = (a + q.toNat) % 16777216 ∧
      s.incAddr p = (a + 1) % 16777216 ∧ s.decAddr p = (a + 16777215) % 16777216 ∧
      s.eaDirect k = s.rampd.toNat * 65536 + k.toNat) ∧
    ((s.setPtrAddr p n).ptr p).toNat = n % 65536 ∧
    (s.setPtrAddr p n).rampOf p =
      (if s.cfg.hasRampx then BitVec.ofNat 8 (n / 65536) &&& keptBits s.cfg (Ptr.ramp p) else s.rampOf p) ∧
    (∀ e : Reg, e ≠ Ptr.low p → e ≠ highOf (Ptr.low p) → (s.setPtrAddr p n).reg e = s.reg e) ∧
    (∀ p', p' ≠ p → (s.setPtrAddr p n).rampOf p' = s.rampOf p') ∧
    { s.setPtrAddr p n with regs := s.regs, rampx := s.rampx, rampy := s.rampy, rampz := s.rampz } = s

/-- R225, R226, R229, R232, R233, R236: the loads that update no pointer read the data space once at their effective
address and write the register; outside the map they are refused. -/
def Obligations.LoadResult : Prop :=
  ∀ (s : State) (d : Reg) (q : BitVec 6) (k : Word),
    let loads (i : Instr) (a : Nat) : Prop :=
      (s.mapped a → ∃ v s', s.memRead a = .next (v, s') ∧
        exec i s = .next { s' with regs := s'.regs.set d v d.isLt, pc := s.nextPc i.words }) ∧
      (¬s.mapped a → exec i s = .refused (.unmappedData a))
    loads (.lds d k) (s.eaDirect k) ∧ loads (.ldX d) (s.ptrAddr .x) ∧ loads (.ldY d) (s.ptrAddr .y) ∧
    loads (.ldZ d) (s.ptrAddr .z) ∧ loads (.lddY d q) (s.eaDisp .y q) ∧ loads (.lddZ d q) (s.eaDisp .z q)

/-- R220, R227, R228, R230, R231, R234, R235: the loads that update their pointer, for a register that is not half of
it: the read at the pointer and the pointer one higher after it, or the pointer one lower and the read there. -/
def Obligations.LoadUpdateResult : Prop :=
  ∀ (s : State) (p : Ptr) (d : Reg), offPointer p d = true →
    let inc : Instr := match p with | .x => .ldXInc d | .y => .ldYInc d | .z => .ldZInc d
    let dec : Instr := match p with | .x => .ldXDec d | .y => .ldYDec d | .z => .ldZDec d
    (s.mapped (s.ptrAddr p) → ∃ v s', s.memRead (s.ptrAddr p) = .next (v, s') ∧
      exec inc s = .next { (s'.setReg d v).setPtrAddr p (s.incAddr p) with pc := s.nextPc 1 }) ∧
    (¬s.mapped (s.ptrAddr p) → exec inc s = .refused (.unmappedData (s.ptrAddr p))) ∧
    (s.mapped (s.decAddr p) → ∃ v s', (s.setPtrAddr p (s.decAddr p)).memRead (s.decAddr p) = .next (v, s') ∧
      exec dec s = .next { s'.setReg d v with pc := s.nextPc 1 }) ∧
    (¬s.mapped (s.decAddr p) → exec dec s = .refused (.unmappedData (s.decAddr p)))

/-- R237, R238, R241, R244, R245, R248: the stores that update no pointer write the register once at their effective
address; outside the map they are refused. -/
def Obligations.StoreResult : Prop :=
  ∀ (s : State) (r : Reg) (q : BitVec 6) (k : Word),
    let stores (i : Instr) (a : Nat) : Prop :=
      (s.mapped a → ∃ s', s.memWrite a (s.reg r) = .next s' ∧
        exec i s = .next { s' with pc := s.nextPc i.words }) ∧
      (¬s.mapped a → exec i s = .refused (.unmappedData a))
    stores (.sts k r) (s.eaDirect k) ∧ stores (.stX r) (s.ptrAddr .x) ∧ stores (.stY r) (s.ptrAddr .y) ∧
    stores (.stZ r) (s.ptrAddr .z) ∧ stores (.stdY q r) (s.eaDisp .y q) ∧ stores (.stdZ q r) (s.eaDisp .z q)

/-- R220, R239, R240, R242, R243, R246, R247: the stores that update their pointer, for a register that is not half of
it. -/
def Obligations.StoreUpdateResult : Prop :=
  ∀ (s : State) (p : Ptr) (r : Reg), offPointer p r = true →
    let inc : Instr := match p with | .x => .stXInc r | .y => .stYInc r | .z => .stZInc r
    let dec : Instr := match p with | .x => .stXDec r | .y => .stYDec r | .z => .stZDec r
    (s.mapped (s.ptrAddr p) → ∃ s', s.memWrite (s.ptrAddr p) (s.reg r) = .next s' ∧
      exec inc s = .next { s'.setPtrAddr p (s.incAddr p) with pc := s.nextPc 1 }) ∧
    (¬s.mapped (s.ptrAddr p) → exec inc s = .refused (.unmappedData (s.ptrAddr p))) ∧
    (s.mapped (s.decAddr p) → ∃ s', (s.setPtrAddr p (s.decAddr p)).memWrite (s.decAddr p) (s.reg r) = .next s' ∧
      exec dec s = .next { s' with pc := s.nextPc 1 }) ∧
    (¬s.mapped (s.decAddr p) → exec dec s = .refused (.unmappedData (s.decAddr p)))

/-- R221: a form that updates a pointer its register is half of is refused, with the address and the first word. -/
def Obligations.OverlapRefused : Prop :=
  ∀ (s : State) (p : Ptr) (d : Reg), d = Ptr.low p ∨ d = highOf (Ptr.low p) →
    ∀ i ∈ (match p with
      | .x => [.ldXInc d, .ldXDec d, .stXInc d, .stXDec d]
      | .y => [.ldYInc d, .ldYDec d, .stYInc d, .stYDec d]
      | .z => [.ldZInc d, .ldZDec d, .stZInc d, .stZDec d, .lpmZInc d, .elpmZInc d] : List Instr),
    ∃ w, encode i = [w] ∧ exec i s = .refused (.undefinedOperands s.pc w)

/-- R78, R120, R220 and the rules of the stores: a store whose effective address is SRAM changes that byte alone. Of
the registers only the halves of a pointer it updates may change; every flag, SP and the other special registers, but
for the RAMP register of an updated pointer, every other byte and all of program memory stay. -/
def Obligations.StoreFrame : Prop :=
  ∀ (s t : State) (r : Reg) (q : BitVec 6) (k : Word), Memory.wf sramBlank s.sram →
    ∀ f ∈ ([(.sts k r, s.eaDirect k, []), (.stX r, s.ptrAddr .x, []), (.stY r, s.ptrAddr .y, []),
      (.stZ r, s.ptrAddr .z, []), (.stdY q r, s.eaDisp .y q, []), (.stdZ q r, s.eaDisp .z q, []),
      (.stXInc r, s.ptrAddr .x, [26, 27]), (.stYInc r, s.ptrAddr .y, [28, 29]),
      (.stZInc r, s.ptrAddr .z, [30, 31]), (.stXDec r, s.decAddr .x, [26, 27]),
      (.stYDec r, s.decAddr .y, [28, 29]), (.stZDec r, s.decAddr .z, [30, 31])] :
      List (Instr × Nat × List Reg)),
    placeOf s.cfg f.2.1 = .sram → exec f.1 s = .next t →
      t.sramAt f.2.1 = s.reg r ∧ (∀ b, b ≠ f.2.1 → t.sramAt b = s.sramAt b) ∧
      (∀ b, t.flashAt b = s.flashAt b) ∧ (∀ e : Reg, e ∉ f.2.2 → t.reg e = s.reg e) ∧
      (∀ p, Ptr.low p ∉ f.2.2 → t.rampOf p = s.rampOf p) ∧
      t.sreg = s.sreg ∧ t.sp = s.sp ∧ t.eind = s.eind ∧ t.rampd = s.rampd ∧ t.irqPending = s.irqPending ∧
      t.irqHoldoff = s.irqHoldoff ∧ t.sleeping = s.sleeping ∧ t.cfg = s.cfg ∧ t.envTrace = s.envTrace

/-- R120, R220, R225 to R236: a load changes its register, the halves of a pointer it updates, that pointer's RAMP
register and pc; every other register and special register, every flag, SP and every byte of memory stay. -/
def Obligations.LoadFrame : Prop :=
  ∀ (s t : State) (d : Reg) (q : BitVec 6) (k : Word),
    ∀ f ∈ ([(.lds d k, []), (.ldX d, []), (.ldY d, []), (.ldZ d, []), (.lddY d q, []), (.lddZ d q, []),
      (.ldXInc d, [26, 27]), (.ldXDec d, [26, 27]), (.ldYInc d, [28, 29]), (.ldYDec d, [28, 29]),
      (.ldZInc d, [30, 31]), (.ldZDec d, [30, 31])] : List (Instr × List Reg)),
    exec f.1 s = .next t →
      (∀ e : Reg, e ≠ d → e ∉ f.2 → t.reg e = s.reg e) ∧
      (∀ p, Ptr.low p ∉ f.2 → t.rampOf p = s.rampOf p) ∧ t.sreg = s.sreg ∧ t.sp = s.sp ∧
      t.eind = s.eind ∧ t.rampd = s.rampd ∧ (∀ b, t.sramAt b = s.sramAt b) ∧
      (∀ b, t.flashAt b = s.flashAt b) ∧
      t.irqPending = s.irqPending ∧ t.irqHoldoff = s.irqHoldoff ∧ t.sleeping = s.sleeping ∧ t.cfg = s.cfg

/-- R62, R249 to R251: LPM reads the byte of program memory that Z addresses; with Z+ Z is one higher modulo 2^16 and
RAMPZ as before; above FLASHEND it is refused. -/
def Obligations.LpmResult : Prop :=
  ∀ (s : State) (d : Reg),
    let z := (s.ptr .z).toNat
    (z / 2 ≤ s.cfg.flashEnd →
      exec .lpmR0 s = .next { s with regs := s.regs.set 0 (s.flashAt z), pc := s.nextPc 1 } ∧
      exec (.lpmZ d) s = .next { s with regs := s.regs.set d (s.flashAt z) d.isLt, pc := s.nextPc 1 } ∧
      (offPointer .z d = true → exec (.lpmZInc d) s =
        .next { (s.setReg d (s.flashAt z)).setPair 30 (BitVec.ofNat 16 (z + 1)) with pc := s.nextPc 1 })) ∧
    (s.cfg.flashEnd < z / 2 →
      exec .lpmR0 s = .refused (.unmappedProgram (z / 2)) ∧ exec (.lpmZ d) s = .refused (.unmappedProgram (z / 2)) ∧
      (offPointer .z d = true → exec (.lpmZInc d) s = .refused (.unmappedProgram (z / 2))))

/-- R37, R62, R252 to R254: ELPM reads the byte that RAMPZ:Z addresses; with Z+ the 24-bit address is one higher and
carries into the bits of RAMPZ that the device implements (log 22); above FLASHEND it is refused. -/
def Obligations.ElpmResult : Prop :=
  ∀ (s : State) (d : Reg),
    let a := s.rampz.toNat * 65536 + (s.ptr .z).toNat
    let a' := (a + 1) % 16777216
    (a / 2 ≤ s.cfg.flashEnd →
      exec .elpmR0 s = .next { s with regs := s.regs.set 0 (s.flashAt a), pc := s.nextPc 1 } ∧
      exec (.elpmZ d) s = .next { s with regs := s.regs.set d (s.flashAt a) d.isLt, pc := s.nextPc 1 } ∧
      (offPointer .z d = true → exec (.elpmZInc d) s =
        .next { (s.setReg d (s.flashAt a)).setPair 30 (BitVec.ofNat 16 (a' % 65536)) with
          rampz := BitVec.ofNat 8 (a' / 65536) &&& keptBits s.cfg .rampz, pc := s.nextPc 1 })) ∧
    (s.cfg.flashEnd < a / 2 →
      exec .elpmR0 s = .refused (.unmappedProgram (a / 2)) ∧ exec (.elpmZ d) s = .refused (.unmappedProgram (a / 2)) ∧
      (offPointer .z d = true → exec (.elpmZInc d) s = .refused (.unmappedProgram (a / 2))))

/-- R255, R256: SPM and SPM Z+ are refused at every state, with the address. -/
def Obligations.SpmRefused : Prop :=
  ∀ s : State, exec .spm s = .refused (.spmNotModelled s.pc) ∧ exec .spmZInc s = .refused (.spmNotModelled s.pc)

/-- R79, R257, R258: IN and OUT reach I/O location A; at a location that is none of the CPU's registers they read and
write the environment. -/
def Obligations.InOutResult : Prop :=
  ∀ (s : State) (r : Reg) (a : BitVec 6),
    exec (.in_ r a) s = .next { (s.ioRead a.toNat).2 with
      regs := (s.ioRead a.toNat).2.regs.set r (s.ioRead a.toNat).1 r.isLt, pc := s.nextPc 1 } ∧
    exec (.out a r) s = .next { s.ioWrite a.toNat (s.reg r) with pc := s.nextPc 1 } ∧
    (cpuRegAt s.cfg a.toNat = none →
      exec (.out a r) s = .next { s with
        envTrace := .write (.io a.toNat) (s.reg r) :: s.envTrace, pc := s.nextPc 1 } ∧
      ∀ v rest, s.ioInputs = v :: rest → exec (.in_ r a) s = .next { s with
        regs := s.regs.set r v r.isLt, ioInputs := rest, envTrace := .read (.io a.toNat) v :: s.envTrace
        pc := s.nextPc 1 })

/-- R34, R35, R40, R79, R326: IN and OUT at the locations of SREG, SPL and SPH, with the default map and a 16-bit SP.
OUT to SREG sets all eight flags, and the hold-off where I goes from 0 to 1. -/
def Obligations.SregAndSpAsIo : Prop :=
  ∀ (s : State) (r : Reg), s.cfg.io = defaultIo → s.cfg.spBits = 16 →
    exec (.in_ r 0x3F) s = .next { s with regs := s.regs.set r s.sreg r.isLt, pc := s.nextPc 1 } ∧
    exec (.in_ r 0x3D) s = .next { s with
      regs := s.regs.set r (BitVec.ofNat 8 (s.sp.toNat % 256)) r.isLt, pc := s.nextPc 1 } ∧
    exec (.in_ r 0x3E) s = .next { s with
      regs := s.regs.set r (BitVec.ofNat 8 (s.sp.toNat / 256)) r.isLt, pc := s.nextPc 1 } ∧
    exec (.out 0x3F r) s = .next { s with
      sreg := s.reg r, irqHoldoff := s.irqHoldoff || (!s.flag .i && decide (128 ≤ (s.reg r).toNat))
      pc := s.nextPc 1 } ∧
    exec (.out 0x3D r) s = .next { s with
      sp := BitVec.ofNat 16 (s.sp.toNat / 256 * 256 + (s.reg r).toNat), pc := s.nextPc 1 } ∧
    exec (.out 0x3E r) s = .next { s with
      sp := BitVec.ofNat 16 ((s.reg r).toNat * 256 + s.sp.toNat % 256), pc := s.nextPc 1 }

/-- R37 to R40, R79: IN and OUT at the locations of RAMPD, RAMPX, RAMPY, RAMPZ and EIND, with the default map, each for
itself. Where the device has the register, IN reads it and OUT writes it: EIND whole, of a RAMP register the bits that
its memory needs. Where it lacks the register, the location is one of the environment's. Which bits a memory needs is
the model's choice (log 22, DEDUCED from R37's "only as many low bits as its memory needs"): bit k where some address of
the memory has bit 16 + k; for RAMPZ program memory, by byte, and on a device with RAMPX the data space as well. -/
def Obligations.ExtensionRegistersAsIo : Prop :=
  ∀ (s : State) (r : Reg), s.cfg.io = defaultIo →
    let data (k : Nat) : Bool := 2 ^ (16 + k) ≤ s.cfg.ramEnd
    let program (k : Nat) : Bool := 2 ^ (16 + k) ≤ 2 * s.cfg.flashEnd + 1
    let location (a : BitVec 6) (has : Bool) (v : Byte) (put : Byte → State) (needs : Nat → Bool) : Prop :=
      (has = true →
        exec (.in_ r a) s = .next { s with regs := s.regs.set r v r.isLt, pc := s.nextPc 1 } ∧
        ∃ x : Byte, (∀ k < 8, x.getLsbD k = ((s.reg r).getLsbD k && needs k)) ∧
          exec (.out a r) s = .next { put x with pc := s.nextPc 1 }) ∧
      (has = false →
        exec (.in_ r a) s = .next { (s.envRead (.io a.toNat)).2 with
          regs := s.regs.set r (s.envRead (.io a.toNat)).1 r.isLt, pc := s.nextPc 1 } ∧
        exec (.out a r) s = .next { s with
          envTrace := .write (.io a.toNat) (s.reg r) :: s.envTrace, pc := s.nextPc 1 })
    location 0x38 s.cfg.hasRampd s.rampd (fun x => { s with rampd := x }) data ∧
    location 0x39 s.cfg.hasRampx s.rampx (fun x => { s with rampx := x }) data ∧
    location 0x3A s.cfg.hasRampy s.rampy (fun x => { s with rampy := x }) data ∧
    location 0x3B s.cfg.hasRampz s.rampz (fun x => { s with rampz := x })
      (fun k => program k || s.cfg.hasRampx && data k) ∧
    location 0x3C s.cfg.hasEind s.eind (fun x => { s with eind := x }) (fun _ => true)

/-! ### Bits -/

/-- R270 to R275: the shifts and rotates, as arithmetic on the register's value. -/
def Obligations.ShiftResult : Prop :=
  ∀ (s : State) (d : Reg),
    let x := (s.reg d).toNat
    let shifts (i : Instr) (r : Nat) (h c : Bool) : Prop := exec i s = .next { s with
      regs := s.regs.set d (BitVec.ofNat 8 r) d.isLt, sreg := shiftSreg s.sreg h r c, pc := s.nextPc 1 }
    shifts (.lsl d) (x * 2 % 256) (8 ≤ x % 16) (128 ≤ x) ∧
    shifts (.rol d) (x * 2 % 256 + (s.flag .c).toNat) (8 ≤ x % 16) (128 ≤ x) ∧
    shifts (.lsr d) (x / 2) (s.flag .h) (x % 2 = 1) ∧
    shifts (.ror d) ((s.flag .c).toNat * 128 + x / 2) (s.flag .h) (x % 2 = 1) ∧
    shifts (.asr d) (x / 128 * 128 + x / 2) (s.flag .h) (x % 2 = 1)

/-- R25, R277, R278, R283 to R298, R326: BSET and BCLR write the numbered bit of SREG alone, the sixteen named flag
instructions the bit their rules name; BSET 7 and SEI with I clear start the hold-off. -/
def Obligations.FlagInstructionResult : Prop :=
  ∀ (s : State) (n : BitVec 3),
    let sets (i : Instr) (m : Nat) : Prop := ∃ x : Byte,
      exec i s = .next { s with
        sreg := x, pc := s.nextPc 1, irqHoldoff := s.irqHoldoff || (m = 7 && !s.flag .i) } ∧
      x.getLsbD m = true ∧ ∀ j, j ≠ m → x.getLsbD j = s.sreg.getLsbD j
    let clears (i : Instr) (m : Nat) : Prop := ∃ x : Byte,
      exec i s = .next { s with sreg := x, pc := s.nextPc 1 } ∧
      x.getLsbD m = false ∧ ∀ j, j ≠ m → x.getLsbD j = s.sreg.getLsbD j
    sets (.bset n) n.toNat ∧ clears (.bclr n) n.toNat ∧
    sets .sec 0 ∧ sets .sez 1 ∧ sets .sen 2 ∧ sets .sev 3 ∧ sets .ses 4 ∧ sets .seh 5 ∧ sets .set 6 ∧
    sets .sei 7 ∧
    clears .clc 0 ∧ clears .clz 1 ∧ clears .cln 2 ∧ clears .clv 3 ∧ clears .cls 4 ∧ clears .clh 5 ∧
    clears .clt 6 ∧ clears .cli 7

/-- R79, R279, R280: SBI and CBI are a read and a write of the whole location with one bit changed, or a write of the
one bit, as the device has it; SREG, the registers and memory stay. -/
def Obligations.IoBitResult : Prop :=
  ∀ (s : State) (a : BitVec 5) (b : BitVec 3),
    (s.cfg.ioBitReadModifyWrite = true → ∃ (v one : Byte) (s' : State), s.envRead (.io a.toNat) = (v, s') ∧
      (∀ m, one.getLsbD m = decide (m = b.toNat)) ∧
      exec (.sbi a b) s = .next { s' with
        envTrace := .write (.io a.toNat) (v ||| one) :: s'.envTrace, pc := s.nextPc 1 } ∧
      exec (.cbi a b) s = .next { s' with
        envTrace := .write (.io a.toNat) (v &&& ~~~one) :: s'.envTrace, pc := s.nextPc 1 }) ∧
    (s.cfg.ioBitReadModifyWrite = false →
      exec (.sbi a b) s =
        .next { s with envTrace := .bitWrite (.io a.toNat) b true :: s.envTrace, pc := s.nextPc 1 } ∧
      exec (.cbi a b) s =
        .next { s with envTrace := .bitWrite (.io a.toNat) b false :: s.envTrace, pc := s.nextPc 1 })

/-- R281, R282: BST copies the bit to T alone; BLD copies T to the bit and keeps the other seven. -/
def Obligations.BitTransfer : Prop :=
  ∀ (s : State) (d : Reg) (b : BitVec 3),
    exec (.bst d b) s = .next { s with
      sreg := if (s.reg d).getLsbD b.toNat then s.sreg ||| 0x40 else s.sreg &&& 0xBF, pc := s.nextPc 1 } ∧
    ∃ v : Byte, exec (.bld d b) s = .next { s with regs := s.regs.set d v d.isLt, pc := s.nextPc 1 } ∧
      v.getLsbD b.toNat = s.flag .t ∧ ∀ m, m ≠ b.toNat → v.getLsbD m = (s.reg d).getLsbD m

/-! ### MCU control -/

/-- R310 to R313: NOP only moves pc; SLEEP moves pc and sleeps; WDR moves pc and tells the environment; BREAK, in the
two readings of R310 (log 11), ends the run at its own address or only moves pc. -/
def Obligations.McuControlResult : Prop :=
  ∀ s : State,
    exec .nop s = .next { s with pc := s.nextPc 1 } ∧
    exec .sleep s = .next { s with sleeping := true, pc := s.nextPc 1 } ∧
    exec .wdr s = .next { s with envTrace := .watchdogReset :: s.envTrace, pc := s.nextPc 1 } ∧
    (s.cfg.breakEndsRun = true → exec .brk s = .fault (.breakReached s.pc)) ∧
    (s.cfg.breakEndsRun = false → exec .brk s = .next { s with pc := s.nextPc 1 })

/-! ### The step, interrupts and reset -/

/-- R24, R63, R325: a step at a boundary with no reset request, no accepted interrupt and no sleep runs the instruction
that the word at pc and the word at pc + 1, taken modulo 2^PC_BITS (log 28), decode to, well-formed or one that R221
refuses, on the state with the environment's inputs taken and the hold-off ended. -/
def Obligations.StepRunsDecoded : Prop :=
  ∀ (s : State) (i : Instr) (rest : List Byte),
    let a := 2 * s.pc.toNat
    let b := 2 * (s.nextPc 1).toNat
    s.sleeping = false → s.tick.resetRequest = false → s.pollEnv.accepted = none →
    decode [s.flashAt a, s.flashAt (a + 1), s.flashAt b, s.flashAt (b + 1)] = .ok (i, rest) →
    isPresent s.cfg i = true → s.pc.toNat ≤ s.cfg.flashEnd →
    (i.words = 2 → (s.nextPc 1).toNat ≤ s.cfg.flashEnd) →
    step s = exec i { s.pollEnv with irqHoldoff := false }

/-- R24, R63, R80, R91, R113, R321: where the step reaches the fetch, a word above FLASHEND, an unassigned word, an
instruction the device lacks and a second word above FLASHEND are refused, in that order. The second word is the one at
pc + 1, taken modulo 2^PC_BITS as R7 and R24 have it; that R91 speaks of that address, so that at
pc = FLASHEND = 2^PC_BITS - 1 it is word 0 and nothing is refused, is the model's reading (log 28, DEDUCED). -/
def Obligations.FetchStops : Prop :=
  ∀ (s : State) (w : Word), s.sleeping = false → s.tick.resetRequest = false → s.pollEnv.accepted = none →
    w = s.flashAt (2 * s.pc.toNat + 1) ++ s.flashAt (2 * s.pc.toNat) →
    (s.cfg.flashEnd < s.pc.toNat → step s = .refused (.unmappedProgram s.pc.toNat)) ∧
    (s.pc.toNat ≤ s.cfg.flashEnd →
      (decodeWords w 0 = none → step s = .refused (.unassignedOpcode s.pc w)) ∧
      (∀ i, decodeWords w 0 = some i → isPresent s.cfg i = false →
        step s = .refused (.unassignedOpcode s.pc w)) ∧
      (∀ i, decodeWords w 0 = some i → isPresent s.cfg i = true → i.words = 2 →
        s.cfg.flashEnd < (s.nextPc 1).toNat → step s = .refused (.unmappedProgram (s.nextPc 1).toNat)))

/-- R323, R325, R328: the request accepted at a boundary is the lowest of those pending after the environment's inputs,
and one is accepted exactly when I is set, the hold-off is clear and some request is pending. -/
def Obligations.LowestRequestAccepted : Prop :=
  ∀ (s : State) (n : Nat),
    let pending (m : Nat) : Prop :=
      (m ∈ s.irqPending ∨ m ∈ s.tick.poll ∧ m ∈ s.cfg.irqVectors) ∧ m ∉ s.tick.withdrawn
    s.pollEnv.accepted = some n ↔
      s.flag .i = true ∧ s.irqHoldoff = false ∧ pending n ∧ ∀ m, pending m → n ≤ m

/-- R64, R324, R325, R327: a step that accepts vector n takes the interrupt: the request is acknowledged and the core
wakes, the return address is pushed, wherever in the data space the stack stands, I is cleared and pc is n times
VECTOR_STRIDE. On a stack in SRAM that changes no register, no other flag and no byte but those of the address. What a
push does where it writes SPL or SPH is the model's choice (log 19). -/
def Obligations.InterruptEntry : Prop :=
  ∀ (s : State) (n : Nat), s.tick.resetRequest = false → s.pollEnv.accepted = some n →
    let woken : State := { s with
      irqPending := s.pollEnv.irqPending.filter (· ≠ n), envTicks := s.envTicks.tail, sleeping := false }
    (∀ t, woken.pushRet s.pc = .next t →
      step s = .next { t with sreg := t.sreg &&& 0x7F, pc := pcAt s.cfg (n * s.cfg.vectorStride) }) ∧
    (s.roomBelow (retBytes s.cfg) → Memory.wf sramBlank s.sram → s.pc.toNat < 2 ^ s.cfg.pcBits →
      ∃ m, step s = .next { woken with
          sram := m, sp := BitVec.ofNat 16 (s.sp.toNat - retBytes s.cfg), sreg := s.sreg &&& 0x7F
          pc := pcAt s.cfg (n * s.cfg.vectorStride) } ∧
        (∀ j < retBytes s.cfg, (memGet sramBlank m (s.sp.toNat - j)).toNat = s.pc.toNat / 256 ^ j % 256) ∧
        ∀ b, (b + retBytes s.cfg ≤ s.sp.toNat ∨ s.sp.toNat < b) → memGet sramBlank m b = s.sramAt b)

/-- R172, R325, R327: a step that accepts an interrupt is refused where the push of the return address leaves the data
map: at its first byte, at its second, or, where there are three, at its third; SP is then where the bytes before have
left it, one of them written to SPL or SPH included, which is the model's choice (log 19). -/
def Obligations.InterruptEntryOffMap : Prop :=
  ∀ (s : State) (n : Nat), s.tick.resetRequest = false → s.pollEnv.accepted = some n →
    let woken : State := { s with
      irqPending := s.pollEnv.irqPending.filter (· ≠ n), envTicks := s.envTicks.tail, sleeping := false }
    let pushes (t : State) (j : Nat) (u : State) : Prop := t.push8 (BitVec.ofNat 8 (s.pc.toNat / 256 ^ j)) = .next u
    let stops (t : State) : Prop := ¬s.mapped t.sp.toNat → step s = .refused (.unmappedData t.sp.toNat)
    stops woken ∧ (∀ t, pushes woken 0 t → stops t) ∧
    (∀ t u, pushes woken 0 t → pushes t 1 u → retBytes s.cfg = 3 → stops u)

/-- R326: whatever instruction takes I from 0 to 1 leaves the hold-off set. -/
def Obligations.RaisingIHoldsOff : Prop :=
  ∀ (i : Instr) (s t : State), exec i s = .next t → s.flag .i = false → t.flag .i = true → t.irqHoldoff = true

/-- R325, R326: while the hold-off is set the step takes no interrupt: it goes on with the instruction at pc, whatever
is pending, and the hold-off is over when that instruction starts. -/
def Obligations.HoldOffDelaysInterrupt : Prop :=
  ∀ s : State, s.irqHoldoff = true → s.tick.resetRequest = false → s.sleeping = false →
    step s = s.fetch.andThen fun i => exec i { s.pollEnv with irqHoldoff := false }

/-- R312, R321, R325, R340: a sleeping core with no accepted interrupt executes nothing and keeps its state; where the
environment will raise nothing more and nothing pending can be accepted, the run has ended. R312 and R321 fix no moment
for that end: that it is the start of a step, once the queue of boundaries is empty, and that the core goes on sleeping
with I clear while the queue is not, is the model's choice (log 12), as is that beyond the queue the environment raises,
withdraws and asks for nothing (log 9). -/
def Obligations.SleepingCore : Prop :=
  ∀ s : State, s.sleeping = true →
    (s.envTicks = [] → (s.flag .i = false ∨ s.irqPending = []) → step s = .fault .asleep) ∧
    (¬(s.envTicks = [] ∧ (s.flag .i = false ∨ s.irqPending = [])) → s.tick.resetRequest = false →
      s.pollEnv.accepted = none → step s = .next { s with
        irqPending := s.pollEnv.irqPending, envTicks := s.envTicks.tail, irqHoldoff := false })

/-- R47, R350: a reset that the environment asks for (which the spec leaves to the model, log 27) puts pc, SREG, SP,
the extension registers and the interrupt state at their reset values and keeps the registers, SRAM and program
memory. -/
def Obligations.ResetRequest : Prop :=
  ∀ s : State, s.tick.resetRequest = true →
    step s = .next { s with
      pc := 0, sreg := 0, sp := spAt s.cfg s.cfg.spReset.toNat
      rampd := 0, rampx := 0, rampy := 0, rampz := 0, eind := 0
      irqPending := [], irqHoldoff := false, sleeping := false, envTicks := s.envTicks.tail }

/-- R47: the values the spec gives for the state right after reset. -/
def Obligations.ResetState : Prop :=
  State.reset.pc = 0 ∧ State.reset.sreg = 0 ∧ State.reset.sp = State.reset.cfg.spReset ∧
  State.reset.rampd = 0 ∧ State.reset.rampx = 0 ∧ State.reset.rampy = 0 ∧ State.reset.rampz = 0 ∧
  State.reset.eind = 0 ∧ State.reset.irqPending = [] ∧ State.reset.irqHoldoff = false ∧
  State.reset.sleeping = false

/-! ### Invariants and frames of the whole machine -/

/-- The machine right after reset satisfies the invariant. The device it starts with is the model's choice (log 1). -/
def Obligations.ResetInv : Prop := State.reset.Inv

/-- Every step keeps the invariant: both memories stay in canonical form and SRAM within its addresses, pc and SP keep
their widths, absent extension registers and unimplemented bits stay zero, and the pending requests stay a set of the
device's vectors. -/
def Obligations.StepKeepsInv : Prop := ∀ s t : State, s.Inv → step s = .next t → t.Inv

/-- R84: no step changes program memory. That none changes the device either is the model's choice (log 1): the
configuration is a part of the state that no rule writes. -/
def Obligations.ProgramMemoryConstant : Prop :=
  ∀ s t : State, step s = .next t → (∀ b, t.flashAt b = s.flashAt b) ∧ t.flash = s.flash ∧ t.cfg = s.cfg

/-- R68: an instruction that is no store, PUSH or call leaves every byte of SRAM as it was. -/
def Obligations.OnlyStoresWriteSram : Prop :=
  ∀ (i : Instr) (s t : State), writesData i = false → exec i s = .next t → ∀ a, t.sramAt a = s.sramAt a
end

