-- ==== Sys2Proof/Laws/Memory.lean ====
section
/-! SUPPORT. The memory laws: a read after a write, the canonical form kept by every write, and equal memories as
equal data. -/

namespace Sys2Proof.Machine

variable {blank : Byte} {m : Memory} {a b : Nat} {v : Byte}

theorem memGet_memEntry_same : memGet blank (memEntry blank a v m) a = if v = blank then memGet blank m a else v := by
  unfold memEntry; split <;> simp [memGet]

theorem memGet_memEntry_other (h : b ≠ a) : memGet blank (memEntry blank a v m) b = memGet blank m b := by
  unfold memEntry; split <;> simp [memGet, h]

/-- Below every listed address a memory reads as blank. -/
theorem memGet_below (h : ∀ c ∈ m, a < c.1) : memGet blank m a = blank := by
  induction m with
  | nil => rfl
  | cons c rest ih =>
    have : a ≠ c.1 := (h c (by simp)).ne
    simp only [memGet, this, if_false]
    exact ih fun c hc => h c (by simp [hc])

theorem Memory.wf_tail {c : Host.Cell} (h : Memory.wf blank (c :: m)) : Memory.wf blank m :=
  ⟨h.1.tail, fun x hx => h.2 x (by simp [hx])⟩

theorem Memory.wf_head {c : Host.Cell} (h : Memory.wf blank (c :: m)) : ∀ x ∈ m, c.1 < x.1 :=
  (List.pairwise_cons.mp h.1).1

/-- A read after a write of the same address gives the byte written. -/
theorem memGet_memPut_same (h : Memory.wf blank m) : memGet blank (memPut blank m a v) a = v := by
  induction m with
  | nil => simp only [memPut, memGet_memEntry_same]; split <;> simp_all [memGet]
  | cons c rest ih =>
    obtain ⟨b, w⟩ := c
    have rise := Memory.wf_head h
    simp only [memPut]
    split_ifs with below eq
    · rw [memGet_memEntry_same, memGet_below (fun x hx => ?_)]
      · split <;> simp_all
      · rcases List.mem_cons.mp hx with rfl | hx
        · exact below
        · exact below.trans (rise x hx)
    · subst eq
      rw [memGet_memEntry_same, memGet_below rise]
      split <;> simp_all
    · simp only [memGet, eq, if_false]
      exact ih (Memory.wf_tail h)

/-- A write leaves every other address as it was. -/
theorem memGet_memPut_other (h : b ≠ a) : memGet blank (memPut blank m a v) b = memGet blank m b := by
  induction m with
  | nil => exact memGet_memEntry_other h
  | cons c rest ih =>
    obtain ⟨k, w⟩ := c
    simp only [memPut]
    split_ifs with below eq
    · exact memGet_memEntry_other h
    · subst eq
      rw [memGet_memEntry_other h]
      simp [memGet, h]
    · simp only [memGet, ih]

/-- An entry of the written memory is the new one or an old one. -/
theorem mem_memPut {c : Host.Cell} (h : c ∈ memPut blank m a v) : c = (a, v) ∧ v ≠ blank ∨ c ∈ m := by
  have entry {n : Memory} (h : c ∈ memEntry blank a v n) : c = (a, v) ∧ v ≠ blank ∨ c ∈ n := by
    unfold memEntry at h; split at h
    · exact .inr h
    · rcases List.mem_cons.mp h with rfl | h
      · exact .inl ⟨rfl, ‹_›⟩
      · exact .inr h
  induction m with
  | nil => exact entry h
  | cons k rest ih =>
    obtain ⟨k, w⟩ := k
    simp only [memPut] at h
    split_ifs at h
    · exact entry h
    · exact (entry h).imp_right (List.mem_cons_of_mem _)
    · rcases List.mem_cons.mp h with rfl | h
      · exact .inr (by simp)
      · exact (ih h).imp_right (List.mem_cons_of_mem _)

/-- Every write keeps the canonical form. -/
theorem memPut_wf (h : Memory.wf blank m) : Memory.wf blank (memPut blank m a v) := by
  have entry {n : Memory} (h : Memory.wf blank n) (low : ∀ c ∈ n, a < c.1) : Memory.wf blank (memEntry blank a v n) := by
    unfold memEntry; split
    · exact h
    · exact ⟨List.pairwise_cons.mpr ⟨low, h.1⟩, fun c hc => by
        rcases List.mem_cons.mp hc with rfl | hc
        · assumption
        · exact h.2 c hc⟩
  induction m with
  | nil => exact entry h (by simp)
  | cons c rest ih =>
    obtain ⟨k, w⟩ := c
    have rise := Memory.wf_head h
    simp only [memPut]
    split_ifs with below eq
    · exact entry h fun x hx => by
        rcases List.mem_cons.mp hx with rfl | hx
        · exact below
        · exact below.trans (rise x hx)
    · subst eq; exact entry (Memory.wf_tail h) rise
    · have keep := ih (Memory.wf_tail h)
      refine ⟨List.pairwise_cons.mpr ⟨fun x hx => ?_, keep.1⟩, fun x hx => ?_⟩
      · rcases mem_memPut hx with ⟨rfl, _⟩ | hx
        · exact lt_of_le_of_ne (not_lt.mp below) (Ne.symm eq)
        · exact rise x hx
      · rcases List.mem_cons.mp hx with rfl | hx
        · exact h.2 _ (by simp)
        · exact keep.2 x hx

theorem memGet_of_mem (h : Memory.wf blank m) {c : Host.Cell} (hc : c ∈ m) : memGet blank m c.1 = c.2 := by
  induction m with
  | nil => simp at hc
  | cons k rest ih =>
    rcases List.mem_cons.mp hc with rfl | hc
    · simp [memGet]
    · have : c.1 ≠ k.1 := (Memory.wf_head h c hc).ne'
      simp only [memGet, this, if_false]
      exact ih (Memory.wf_tail h) hc

/-- Memories in canonical form that read alike are the same data. -/
theorem Memory.ext {m n : Memory} (hm : Memory.wf blank m) (hn : Memory.wf blank n)
    (h : ∀ a, memGet blank m a = memGet blank n a) : m = n := by
  induction m generalizing n with
  | nil =>
    cases n with
    | nil => rfl
    | cons c rest => exact absurd ((h c.1).trans (memGet_of_mem hn (by simp))).symm (hn.2 c (by simp))
  | cons c rest ih =>
    cases n with
    | nil => exact absurd ((h c.1).symm.trans (memGet_of_mem hm (by simp))).symm (hm.2 c (by simp))
    | cons d rest' =>
      have first : c.1 = d.1 := by
        rcases lt_trichotomy c.1 d.1 with lt | eq | gt
        · have low : ∀ x ∈ d :: rest', c.1 < x.1 := fun x hx => by
            rcases List.mem_cons.mp hx with rfl | hx
            · exact lt
            · exact lt.trans (Memory.wf_head hn x hx)
          exact absurd ((memGet_of_mem hm (by simp)).symm.trans ((h c.1).trans (memGet_below low))) (hm.2 c (by simp))
        · exact eq
        · have low : ∀ x ∈ c :: rest, d.1 < x.1 := fun x hx => by
            rcases List.mem_cons.mp hx with rfl | hx
            · exact gt
            · exact gt.trans (Memory.wf_head hm x hx)
          exact absurd ((memGet_of_mem hn (by simp)).symm.trans ((h d.1).symm.trans (memGet_below low)))
            (hn.2 d (by simp))
      have second : c.2 = d.2 := by
        have := h c.1
        rwa [memGet_of_mem hm (by simp), first, memGet_of_mem hn (by simp)] at this
      obtain ⟨a, v⟩ := c
      obtain ⟨b, w⟩ := d
      obtain rfl : a = b := first
      obtain rfl : v = w := second
      have tails : rest = rest' := ih (Memory.wf_tail hm) (Memory.wf_tail hn) fun b => by
        by_cases eq : b = a
        · subst eq
          rw [memGet_below (Memory.wf_head hm), memGet_below (Memory.wf_head hn)]
        · simpa [memGet, eq] using h b
      rw [tails]

/-- The empty memory, that of the machine after reset, is in canonical form. -/
theorem Memory.wf_nil : Memory.wf blank [] := ⟨List.Pairwise.nil, fun c hc => by cases hc⟩

/-- Both memories of the machine right after reset are in canonical form. -/
theorem reset_memory_wf : Memory.wf sramBlank State.reset.sram ∧ Memory.wf flashBlank State.reset.flash :=
  ⟨Memory.wf_nil, Memory.wf_nil⟩

end Sys2Proof.Machine
end

