-- ==== Sys2Proof/Laws/State.lean ====
section
/-! SUPPORT. One lemma per field per update of the state, so that no proof unfolds a record update. -/

namespace Sys2Proof.Machine

variable (s : State)

@[simp] theorem setReg_cfg (d : Reg) (v : Byte) : (s.setReg d v).cfg = s.cfg := rfl
@[simp] theorem setReg_regs (d : Reg) (v : Byte) : (s.setReg d v).regs = s.regs.set d.val v d.isLt := rfl
@[simp] theorem setReg_pc (d : Reg) (v : Byte) : (s.setReg d v).pc = s.pc := rfl
@[simp] theorem setReg_sreg (d : Reg) (v : Byte) : (s.setReg d v).sreg = s.sreg := rfl
@[simp] theorem setReg_sp (d : Reg) (v : Byte) : (s.setReg d v).sp = s.sp := rfl
@[simp] theorem setReg_rampd (d : Reg) (v : Byte) : (s.setReg d v).rampd = s.rampd := rfl
@[simp] theorem setReg_rampx (d : Reg) (v : Byte) : (s.setReg d v).rampx = s.rampx := rfl
@[simp] theorem setReg_rampy (d : Reg) (v : Byte) : (s.setReg d v).rampy = s.rampy := rfl
@[simp] theorem setReg_rampz (d : Reg) (v : Byte) : (s.setReg d v).rampz = s.rampz := rfl
@[simp] theorem setReg_eind (d : Reg) (v : Byte) : (s.setReg d v).eind = s.eind := rfl
@[simp] theorem setReg_sram (d : Reg) (v : Byte) : (s.setReg d v).sram = s.sram := rfl
@[simp] theorem setReg_flash (d : Reg) (v : Byte) : (s.setReg d v).flash = s.flash := rfl
@[simp] theorem setReg_irqPending (d : Reg) (v : Byte) : (s.setReg d v).irqPending = s.irqPending := rfl
@[simp] theorem setReg_irqHoldoff (d : Reg) (v : Byte) : (s.setReg d v).irqHoldoff = s.irqHoldoff := rfl
@[simp] theorem setReg_sleeping (d : Reg) (v : Byte) : (s.setReg d v).sleeping = s.sleeping := rfl
@[simp] theorem setReg_ioInputs (d : Reg) (v : Byte) : (s.setReg d v).ioInputs = s.ioInputs := rfl
@[simp] theorem setReg_envDraws (d : Reg) (v : Byte) : (s.setReg d v).envDraws = s.envDraws := rfl
@[simp] theorem setReg_envTicks (d : Reg) (v : Byte) : (s.setReg d v).envTicks = s.envTicks := rfl
@[simp] theorem setReg_envTrace (d : Reg) (v : Byte) : (s.setReg d v).envTrace = s.envTrace := rfl

@[simp] theorem setPair_cfg (d : Reg) (v : Word) : (s.setPair d v).cfg = s.cfg := rfl
@[simp] theorem setPair_pc (d : Reg) (v : Word) : (s.setPair d v).pc = s.pc := rfl
@[simp] theorem setPair_sreg (d : Reg) (v : Word) : (s.setPair d v).sreg = s.sreg := rfl
@[simp] theorem setPair_sp (d : Reg) (v : Word) : (s.setPair d v).sp = s.sp := rfl
@[simp] theorem setPair_rampd (d : Reg) (v : Word) : (s.setPair d v).rampd = s.rampd := rfl
@[simp] theorem setPair_rampx (d : Reg) (v : Word) : (s.setPair d v).rampx = s.rampx := rfl
@[simp] theorem setPair_rampy (d : Reg) (v : Word) : (s.setPair d v).rampy = s.rampy := rfl
@[simp] theorem setPair_rampz (d : Reg) (v : Word) : (s.setPair d v).rampz = s.rampz := rfl
@[simp] theorem setPair_eind (d : Reg) (v : Word) : (s.setPair d v).eind = s.eind := rfl
@[simp] theorem setPair_sram (d : Reg) (v : Word) : (s.setPair d v).sram = s.sram := rfl
@[simp] theorem setPair_flash (d : Reg) (v : Word) : (s.setPair d v).flash = s.flash := rfl
@[simp] theorem setPair_irqPending (d : Reg) (v : Word) : (s.setPair d v).irqPending = s.irqPending := rfl
@[simp] theorem setPair_irqHoldoff (d : Reg) (v : Word) : (s.setPair d v).irqHoldoff = s.irqHoldoff := rfl
@[simp] theorem setPair_sleeping (d : Reg) (v : Word) : (s.setPair d v).sleeping = s.sleeping := rfl
@[simp] theorem setPair_ioInputs (d : Reg) (v : Word) : (s.setPair d v).ioInputs = s.ioInputs := rfl
@[simp] theorem setPair_envDraws (d : Reg) (v : Word) : (s.setPair d v).envDraws = s.envDraws := rfl
@[simp] theorem setPair_envTicks (d : Reg) (v : Word) : (s.setPair d v).envTicks = s.envTicks := rfl
@[simp] theorem setPair_envTrace (d : Reg) (v : Word) : (s.setPair d v).envTrace = s.envTrace := rfl

@[simp] theorem setBlock_cfg (v : BitVec 128) : (s.setBlock v).cfg = s.cfg := by simp only [State.setBlock]
@[simp] theorem setBlock_pc (v : BitVec 128) : (s.setBlock v).pc = s.pc := by simp only [State.setBlock]
@[simp] theorem setBlock_sreg (v : BitVec 128) : (s.setBlock v).sreg = s.sreg := by simp only [State.setBlock]
@[simp] theorem setBlock_sp (v : BitVec 128) : (s.setBlock v).sp = s.sp := by simp only [State.setBlock]
@[simp] theorem setBlock_rampd (v : BitVec 128) : (s.setBlock v).rampd = s.rampd := by simp only [State.setBlock]
@[simp] theorem setBlock_rampx (v : BitVec 128) : (s.setBlock v).rampx = s.rampx := by simp only [State.setBlock]
@[simp] theorem setBlock_rampy (v : BitVec 128) : (s.setBlock v).rampy = s.rampy := by simp only [State.setBlock]
@[simp] theorem setBlock_rampz (v : BitVec 128) : (s.setBlock v).rampz = s.rampz := by simp only [State.setBlock]
@[simp] theorem setBlock_eind (v : BitVec 128) : (s.setBlock v).eind = s.eind := by simp only [State.setBlock]
@[simp] theorem setBlock_sram (v : BitVec 128) : (s.setBlock v).sram = s.sram := by simp only [State.setBlock]
@[simp] theorem setBlock_flash (v : BitVec 128) : (s.setBlock v).flash = s.flash := by simp only [State.setBlock]
@[simp] theorem setBlock_irqPending (v : BitVec 128) :
    (s.setBlock v).irqPending = s.irqPending := by simp only [State.setBlock]
@[simp] theorem setBlock_irqHoldoff (v : BitVec 128) :
    (s.setBlock v).irqHoldoff = s.irqHoldoff := by simp only [State.setBlock]
@[simp] theorem setBlock_sleeping (v : BitVec 128) :
    (s.setBlock v).sleeping = s.sleeping := by simp only [State.setBlock]
@[simp] theorem setBlock_ioInputs (v : BitVec 128) :
    (s.setBlock v).ioInputs = s.ioInputs := by simp only [State.setBlock]
@[simp] theorem setBlock_envDraws (v : BitVec 128) :
    (s.setBlock v).envDraws = s.envDraws := by simp only [State.setBlock]
@[simp] theorem setBlock_envTicks (v : BitVec 128) :
    (s.setBlock v).envTicks = s.envTicks := by simp only [State.setBlock]
@[simp] theorem setBlock_envTrace (v : BitVec 128) :
    (s.setBlock v).envTrace = s.envTrace := by simp only [State.setBlock]

@[simp] theorem setFlag_cfg (f : Flag) (b : Bool) : (s.setFlag f b).cfg = s.cfg := rfl
@[simp] theorem setFlag_regs (f : Flag) (b : Bool) : (s.setFlag f b).regs = s.regs := rfl
@[simp] theorem setFlag_pc (f : Flag) (b : Bool) : (s.setFlag f b).pc = s.pc := rfl
@[simp] theorem setFlag_sreg (f : Flag) (b : Bool) : (s.setFlag f b).sreg = putFlag s.sreg f b := rfl
@[simp] theorem setFlag_sp (f : Flag) (b : Bool) : (s.setFlag f b).sp = s.sp := rfl
@[simp] theorem setFlag_rampd (f : Flag) (b : Bool) : (s.setFlag f b).rampd = s.rampd := rfl
@[simp] theorem setFlag_rampx (f : Flag) (b : Bool) : (s.setFlag f b).rampx = s.rampx := rfl
@[simp] theorem setFlag_rampy (f : Flag) (b : Bool) : (s.setFlag f b).rampy = s.rampy := rfl
@[simp] theorem setFlag_rampz (f : Flag) (b : Bool) : (s.setFlag f b).rampz = s.rampz := rfl
@[simp] theorem setFlag_eind (f : Flag) (b : Bool) : (s.setFlag f b).eind = s.eind := rfl
@[simp] theorem setFlag_sram (f : Flag) (b : Bool) : (s.setFlag f b).sram = s.sram := rfl
@[simp] theorem setFlag_flash (f : Flag) (b : Bool) : (s.setFlag f b).flash = s.flash := rfl
@[simp] theorem setFlag_irqPending (f : Flag) (b : Bool) : (s.setFlag f b).irqPending = s.irqPending := rfl
@[simp] theorem setFlag_irqHoldoff (f : Flag) (b : Bool) : (s.setFlag f b).irqHoldoff = s.irqHoldoff := rfl
@[simp] theorem setFlag_sleeping (f : Flag) (b : Bool) : (s.setFlag f b).sleeping = s.sleeping := rfl
@[simp] theorem setFlag_ioInputs (f : Flag) (b : Bool) : (s.setFlag f b).ioInputs = s.ioInputs := rfl
@[simp] theorem setFlag_envDraws (f : Flag) (b : Bool) : (s.setFlag f b).envDraws = s.envDraws := rfl
@[simp] theorem setFlag_envTicks (f : Flag) (b : Bool) : (s.setFlag f b).envTicks = s.envTicks := rfl
@[simp] theorem setFlag_envTrace (f : Flag) (b : Bool) : (s.setFlag f b).envTrace = s.envTrace := rfl

@[simp] theorem raiseFlag_cfg (f : Flag) : (s.raiseFlag f).cfg = s.cfg := rfl
@[simp] theorem raiseFlag_regs (f : Flag) : (s.raiseFlag f).regs = s.regs := rfl
@[simp] theorem raiseFlag_pc (f : Flag) : (s.raiseFlag f).pc = s.pc := rfl
@[simp] theorem raiseFlag_sreg (f : Flag) : (s.raiseFlag f).sreg = putFlag s.sreg f true := rfl
@[simp] theorem raiseFlag_sp (f : Flag) : (s.raiseFlag f).sp = s.sp := rfl
@[simp] theorem raiseFlag_rampd (f : Flag) : (s.raiseFlag f).rampd = s.rampd := rfl
@[simp] theorem raiseFlag_rampx (f : Flag) : (s.raiseFlag f).rampx = s.rampx := rfl
@[simp] theorem raiseFlag_rampy (f : Flag) : (s.raiseFlag f).rampy = s.rampy := rfl
@[simp] theorem raiseFlag_rampz (f : Flag) : (s.raiseFlag f).rampz = s.rampz := rfl
@[simp] theorem raiseFlag_eind (f : Flag) : (s.raiseFlag f).eind = s.eind := rfl
@[simp] theorem raiseFlag_sram (f : Flag) : (s.raiseFlag f).sram = s.sram := rfl
@[simp] theorem raiseFlag_flash (f : Flag) : (s.raiseFlag f).flash = s.flash := rfl
@[simp] theorem raiseFlag_irqPending (f : Flag) : (s.raiseFlag f).irqPending = s.irqPending := rfl
@[simp] theorem raiseFlag_sleeping (f : Flag) : (s.raiseFlag f).sleeping = s.sleeping := rfl
@[simp] theorem raiseFlag_ioInputs (f : Flag) : (s.raiseFlag f).ioInputs = s.ioInputs := rfl
@[simp] theorem raiseFlag_envDraws (f : Flag) : (s.raiseFlag f).envDraws = s.envDraws := rfl
@[simp] theorem raiseFlag_envTicks (f : Flag) : (s.raiseFlag f).envTicks = s.envTicks := rfl
@[simp] theorem raiseFlag_envTrace (f : Flag) : (s.raiseFlag f).envTrace = s.envTrace := rfl

@[simp] theorem writeSreg_cfg (v : Byte) : (s.writeSreg v).cfg = s.cfg := rfl
@[simp] theorem writeSreg_regs (v : Byte) : (s.writeSreg v).regs = s.regs := rfl
@[simp] theorem writeSreg_pc (v : Byte) : (s.writeSreg v).pc = s.pc := rfl
@[simp] theorem writeSreg_sreg (v : Byte) : (s.writeSreg v).sreg = v := rfl
@[simp] theorem writeSreg_sp (v : Byte) : (s.writeSreg v).sp = s.sp := rfl
@[simp] theorem writeSreg_rampd (v : Byte) : (s.writeSreg v).rampd = s.rampd := rfl
@[simp] theorem writeSreg_rampx (v : Byte) : (s.writeSreg v).rampx = s.rampx := rfl
@[simp] theorem writeSreg_rampy (v : Byte) : (s.writeSreg v).rampy = s.rampy := rfl
@[simp] theorem writeSreg_rampz (v : Byte) : (s.writeSreg v).rampz = s.rampz := rfl
@[simp] theorem writeSreg_eind (v : Byte) : (s.writeSreg v).eind = s.eind := rfl
@[simp] theorem writeSreg_sram (v : Byte) : (s.writeSreg v).sram = s.sram := rfl
@[simp] theorem writeSreg_flash (v : Byte) : (s.writeSreg v).flash = s.flash := rfl
@[simp] theorem writeSreg_irqPending (v : Byte) : (s.writeSreg v).irqPending = s.irqPending := rfl
@[simp] theorem writeSreg_irqHoldoff (v : Byte) :
    (s.writeSreg v).irqHoldoff = (s.irqHoldoff || (!flagOf s.sreg .i && flagOf v .i)) := rfl
@[simp] theorem writeSreg_sleeping (v : Byte) : (s.writeSreg v).sleeping = s.sleeping := rfl
@[simp] theorem writeSreg_ioInputs (v : Byte) : (s.writeSreg v).ioInputs = s.ioInputs := rfl
@[simp] theorem writeSreg_envDraws (v : Byte) : (s.writeSreg v).envDraws = s.envDraws := rfl
@[simp] theorem writeSreg_envTicks (v : Byte) : (s.writeSreg v).envTicks = s.envTicks := rfl
@[simp] theorem writeSreg_envTrace (v : Byte) : (s.writeSreg v).envTrace = s.envTrace := rfl

@[simp] theorem jump_cfg (n : Int) : (s.jump n).cfg = s.cfg := rfl
@[simp] theorem jump_regs (n : Int) : (s.jump n).regs = s.regs := rfl
@[simp] theorem jump_pc (n : Int) : (s.jump n).pc = wrapPc s.cfg n := rfl
@[simp] theorem jump_sreg (n : Int) : (s.jump n).sreg = s.sreg := rfl
@[simp] theorem jump_sp (n : Int) : (s.jump n).sp = s.sp := rfl
@[simp] theorem jump_rampd (n : Int) : (s.jump n).rampd = s.rampd := rfl
@[simp] theorem jump_rampx (n : Int) : (s.jump n).rampx = s.rampx := rfl
@[simp] theorem jump_rampy (n : Int) : (s.jump n).rampy = s.rampy := rfl
@[simp] theorem jump_rampz (n : Int) : (s.jump n).rampz = s.rampz := rfl
@[simp] theorem jump_eind (n : Int) : (s.jump n).eind = s.eind := rfl
@[simp] theorem jump_sram (n : Int) : (s.jump n).sram = s.sram := rfl
@[simp] theorem jump_flash (n : Int) : (s.jump n).flash = s.flash := rfl
@[simp] theorem jump_irqPending (n : Int) : (s.jump n).irqPending = s.irqPending := rfl
@[simp] theorem jump_irqHoldoff (n : Int) : (s.jump n).irqHoldoff = s.irqHoldoff := rfl
@[simp] theorem jump_sleeping (n : Int) : (s.jump n).sleeping = s.sleeping := rfl
@[simp] theorem jump_ioInputs (n : Int) : (s.jump n).ioInputs = s.ioInputs := rfl
@[simp] theorem jump_envDraws (n : Int) : (s.jump n).envDraws = s.envDraws := rfl
@[simp] theorem jump_envTicks (n : Int) : (s.jump n).envTicks = s.envTicks := rfl
@[simp] theorem jump_envTrace (n : Int) : (s.jump n).envTrace = s.envTrace := rfl

@[simp] theorem advance_cfg (n : Nat) : (s.advance n).cfg = s.cfg := rfl
@[simp] theorem advance_regs (n : Nat) : (s.advance n).regs = s.regs := rfl
@[simp] theorem advance_pc (n : Nat) : (s.advance n).pc = wrapPc s.cfg (s.pc.toNat + n) := rfl
@[simp] theorem advance_sreg (n : Nat) : (s.advance n).sreg = s.sreg := rfl
@[simp] theorem advance_sp (n : Nat) : (s.advance n).sp = s.sp := rfl
@[simp] theorem advance_rampd (n : Nat) : (s.advance n).rampd = s.rampd := rfl
@[simp] theorem advance_rampx (n : Nat) : (s.advance n).rampx = s.rampx := rfl
@[simp] theorem advance_rampy (n : Nat) : (s.advance n).rampy = s.rampy := rfl
@[simp] theorem advance_rampz (n : Nat) : (s.advance n).rampz = s.rampz := rfl
@[simp] theorem advance_eind (n : Nat) : (s.advance n).eind = s.eind := rfl
@[simp] theorem advance_sram (n : Nat) : (s.advance n).sram = s.sram := rfl
@[simp] theorem advance_flash (n : Nat) : (s.advance n).flash = s.flash := rfl
@[simp] theorem advance_irqPending (n : Nat) : (s.advance n).irqPending = s.irqPending := rfl
@[simp] theorem advance_irqHoldoff (n : Nat) : (s.advance n).irqHoldoff = s.irqHoldoff := rfl
@[simp] theorem advance_sleeping (n : Nat) : (s.advance n).sleeping = s.sleeping := rfl
@[simp] theorem advance_ioInputs (n : Nat) : (s.advance n).ioInputs = s.ioInputs := rfl
@[simp] theorem advance_envDraws (n : Nat) : (s.advance n).envDraws = s.envDraws := rfl
@[simp] theorem advance_envTicks (n : Nat) : (s.advance n).envTicks = s.envTicks := rfl
@[simp] theorem advance_envTrace (n : Nat) : (s.advance n).envTrace = s.envTrace := rfl

@[simp] theorem jumpRel_cfg (k : Int) : (s.jumpRel k).cfg = s.cfg := rfl
@[simp] theorem jumpRel_regs (k : Int) : (s.jumpRel k).regs = s.regs := rfl
@[simp] theorem jumpRel_pc (k : Int) : (s.jumpRel k).pc = wrapPc s.cfg (s.pc.toNat + 1 + k) := rfl
@[simp] theorem jumpRel_sreg (k : Int) : (s.jumpRel k).sreg = s.sreg := rfl
@[simp] theorem jumpRel_sp (k : Int) : (s.jumpRel k).sp = s.sp := rfl
@[simp] theorem jumpRel_rampd (k : Int) : (s.jumpRel k).rampd = s.rampd := rfl
@[simp] theorem jumpRel_rampx (k : Int) : (s.jumpRel k).rampx = s.rampx := rfl
@[simp] theorem jumpRel_rampy (k : Int) : (s.jumpRel k).rampy = s.rampy := rfl
@[simp] theorem jumpRel_rampz (k : Int) : (s.jumpRel k).rampz = s.rampz := rfl
@[simp] theorem jumpRel_eind (k : Int) : (s.jumpRel k).eind = s.eind := rfl
@[simp] theorem jumpRel_sram (k : Int) : (s.jumpRel k).sram = s.sram := rfl
@[simp] theorem jumpRel_flash (k : Int) : (s.jumpRel k).flash = s.flash := rfl
@[simp] theorem jumpRel_irqPending (k : Int) : (s.jumpRel k).irqPending = s.irqPending := rfl
@[simp] theorem jumpRel_irqHoldoff (k : Int) : (s.jumpRel k).irqHoldoff = s.irqHoldoff := rfl
@[simp] theorem jumpRel_sleeping (k : Int) : (s.jumpRel k).sleeping = s.sleeping := rfl
@[simp] theorem jumpRel_ioInputs (k : Int) : (s.jumpRel k).ioInputs = s.ioInputs := rfl
@[simp] theorem jumpRel_envDraws (k : Int) : (s.jumpRel k).envDraws = s.envDraws := rfl
@[simp] theorem jumpRel_envTicks (k : Int) : (s.jumpRel k).envTicks = s.envTicks := rfl
@[simp] theorem jumpRel_envTrace (k : Int) : (s.jumpRel k).envTrace = s.envTrace := rfl

@[simp] theorem setSp_cfg (n : Int) : (s.setSp n).cfg = s.cfg := rfl
@[simp] theorem setSp_regs (n : Int) : (s.setSp n).regs = s.regs := rfl
@[simp] theorem setSp_pc (n : Int) : (s.setSp n).pc = s.pc := rfl
@[simp] theorem setSp_sreg (n : Int) : (s.setSp n).sreg = s.sreg := rfl
@[simp] theorem setSp_sp (n : Int) : (s.setSp n).sp = wrapSp s.cfg n := rfl
@[simp] theorem setSp_rampd (n : Int) : (s.setSp n).rampd = s.rampd := rfl
@[simp] theorem setSp_rampx (n : Int) : (s.setSp n).rampx = s.rampx := rfl
@[simp] theorem setSp_rampy (n : Int) : (s.setSp n).rampy = s.rampy := rfl
@[simp] theorem setSp_rampz (n : Int) : (s.setSp n).rampz = s.rampz := rfl
@[simp] theorem setSp_eind (n : Int) : (s.setSp n).eind = s.eind := rfl
@[simp] theorem setSp_sram (n : Int) : (s.setSp n).sram = s.sram := rfl
@[simp] theorem setSp_flash (n : Int) : (s.setSp n).flash = s.flash := rfl
@[simp] theorem setSp_irqPending (n : Int) : (s.setSp n).irqPending = s.irqPending := rfl
@[simp] theorem setSp_irqHoldoff (n : Int) : (s.setSp n).irqHoldoff = s.irqHoldoff := rfl
@[simp] theorem setSp_sleeping (n : Int) : (s.setSp n).sleeping = s.sleeping := rfl
@[simp] theorem setSp_ioInputs (n : Int) : (s.setSp n).ioInputs = s.ioInputs := rfl
@[simp] theorem setSp_envDraws (n : Int) : (s.setSp n).envDraws = s.envDraws := rfl
@[simp] theorem setSp_envTicks (n : Int) : (s.setSp n).envTicks = s.envTicks := rfl
@[simp] theorem setSp_envTrace (n : Int) : (s.setSp n).envTrace = s.envTrace := rfl

@[simp] theorem envWrite_cfg (l : EnvLoc) (v : Byte) : (s.envWrite l v).cfg = s.cfg := rfl
@[simp] theorem envWrite_regs (l : EnvLoc) (v : Byte) : (s.envWrite l v).regs = s.regs := rfl
@[simp] theorem envWrite_pc (l : EnvLoc) (v : Byte) : (s.envWrite l v).pc = s.pc := rfl
@[simp] theorem envWrite_sreg (l : EnvLoc) (v : Byte) : (s.envWrite l v).sreg = s.sreg := rfl
@[simp] theorem envWrite_sp (l : EnvLoc) (v : Byte) : (s.envWrite l v).sp = s.sp := rfl
@[simp] theorem envWrite_rampd (l : EnvLoc) (v : Byte) : (s.envWrite l v).rampd = s.rampd := rfl
@[simp] theorem envWrite_rampx (l : EnvLoc) (v : Byte) : (s.envWrite l v).rampx = s.rampx := rfl
@[simp] theorem envWrite_rampy (l : EnvLoc) (v : Byte) : (s.envWrite l v).rampy = s.rampy := rfl
@[simp] theorem envWrite_rampz (l : EnvLoc) (v : Byte) : (s.envWrite l v).rampz = s.rampz := rfl
@[simp] theorem envWrite_eind (l : EnvLoc) (v : Byte) : (s.envWrite l v).eind = s.eind := rfl
@[simp] theorem envWrite_sram (l : EnvLoc) (v : Byte) : (s.envWrite l v).sram = s.sram := rfl
@[simp] theorem envWrite_flash (l : EnvLoc) (v : Byte) : (s.envWrite l v).flash = s.flash := rfl
@[simp] theorem envWrite_irqPending (l : EnvLoc) (v : Byte) : (s.envWrite l v).irqPending = s.irqPending := rfl
@[simp] theorem envWrite_irqHoldoff (l : EnvLoc) (v : Byte) : (s.envWrite l v).irqHoldoff = s.irqHoldoff := rfl
@[simp] theorem envWrite_sleeping (l : EnvLoc) (v : Byte) : (s.envWrite l v).sleeping = s.sleeping := rfl
@[simp] theorem envWrite_ioInputs (l : EnvLoc) (v : Byte) : (s.envWrite l v).ioInputs = s.ioInputs := rfl
@[simp] theorem envWrite_envDraws (l : EnvLoc) (v : Byte) : (s.envWrite l v).envDraws = s.envDraws := rfl
@[simp] theorem envWrite_envTicks (l : EnvLoc) (v : Byte) : (s.envWrite l v).envTicks = s.envTicks := rfl
@[simp] theorem envWrite_envTrace (l : EnvLoc) (v : Byte) :
    (s.envWrite l v).envTrace = .write l v :: s.envTrace := rfl

@[simp] theorem resetEvent_cfg : s.resetEvent.cfg = s.cfg := rfl
@[simp] theorem resetEvent_regs : s.resetEvent.regs = s.regs := rfl
@[simp] theorem resetEvent_pc : s.resetEvent.pc = 0 := rfl
@[simp] theorem resetEvent_sreg : s.resetEvent.sreg = 0 := rfl
@[simp] theorem resetEvent_sp : s.resetEvent.sp = wrapSp s.cfg s.cfg.spReset.toNat := rfl
@[simp] theorem resetEvent_rampd : s.resetEvent.rampd = 0 := rfl
@[simp] theorem resetEvent_rampx : s.resetEvent.rampx = 0 := rfl
@[simp] theorem resetEvent_rampy : s.resetEvent.rampy = 0 := rfl
@[simp] theorem resetEvent_rampz : s.resetEvent.rampz = 0 := rfl
@[simp] theorem resetEvent_eind : s.resetEvent.eind = 0 := rfl
@[simp] theorem resetEvent_sram : s.resetEvent.sram = s.sram := rfl
@[simp] theorem resetEvent_flash : s.resetEvent.flash = s.flash := rfl
@[simp] theorem resetEvent_irqPending : s.resetEvent.irqPending = [] := rfl
@[simp] theorem resetEvent_irqHoldoff : s.resetEvent.irqHoldoff = false := rfl
@[simp] theorem resetEvent_sleeping : s.resetEvent.sleeping = false := rfl
@[simp] theorem resetEvent_ioInputs : s.resetEvent.ioInputs = s.ioInputs := rfl
@[simp] theorem resetEvent_envDraws : s.resetEvent.envDraws = s.envDraws := rfl
@[simp] theorem resetEvent_envTicks : s.resetEvent.envTicks = s.envTicks := rfl
@[simp] theorem resetEvent_envTrace : s.resetEvent.envTrace = s.envTrace := rfl

@[simp] theorem pollEnv_cfg : s.pollEnv.cfg = s.cfg := rfl
@[simp] theorem pollEnv_regs : s.pollEnv.regs = s.regs := rfl
@[simp] theorem pollEnv_pc : s.pollEnv.pc = s.pc := rfl
@[simp] theorem pollEnv_sreg : s.pollEnv.sreg = s.sreg := rfl
@[simp] theorem pollEnv_sp : s.pollEnv.sp = s.sp := rfl
@[simp] theorem pollEnv_rampd : s.pollEnv.rampd = s.rampd := rfl
@[simp] theorem pollEnv_rampx : s.pollEnv.rampx = s.rampx := rfl
@[simp] theorem pollEnv_rampy : s.pollEnv.rampy = s.rampy := rfl
@[simp] theorem pollEnv_rampz : s.pollEnv.rampz = s.rampz := rfl
@[simp] theorem pollEnv_eind : s.pollEnv.eind = s.eind := rfl
@[simp] theorem pollEnv_sram : s.pollEnv.sram = s.sram := rfl
@[simp] theorem pollEnv_flash : s.pollEnv.flash = s.flash := rfl
@[simp] theorem pollEnv_irqHoldoff : s.pollEnv.irqHoldoff = s.irqHoldoff := rfl
@[simp] theorem pollEnv_sleeping : s.pollEnv.sleeping = s.sleeping := rfl
@[simp] theorem pollEnv_ioInputs : s.pollEnv.ioInputs = s.ioInputs := rfl
@[simp] theorem pollEnv_envDraws : s.pollEnv.envDraws = s.envDraws := rfl
@[simp] theorem pollEnv_envTicks : s.pollEnv.envTicks = s.envTicks.tail := rfl
@[simp] theorem pollEnv_envTrace : s.pollEnv.envTrace = s.envTrace := rfl

end Sys2Proof.Machine
end

