-- ==== Sys2Proof/Laws/Values.lean ====
section
/-! SUPPORT. What registers, pairs, flags, pc and SP hold after they are written, and that the model's wrapping of pc
and SP is that of the claims. -/

namespace Sys2Proof.Machine

variable (s : State)

/-! ### Registers -/

@[simp] theorem reg_setReg_same (d : Reg) (v : Byte) : (s.setReg d v).reg d = v := by
  simp [State.reg, State.setReg]

theorem reg_setReg_other {d e : Reg} (h : e ≠ d) (v : Byte) : (s.setReg d v).reg e = s.reg e := by
  have : d.val ≠ e.val := fun eq => h (Fin.ext eq).symm
  simp only [State.reg, State.setReg]
  exact Vector.getElem_set_ne d.isLt e.isLt this

/-- A register reads alike in states with the same register file. -/
theorem reg_congr {s t : State} (h : s.regs = t.regs) (d : Reg) : s.reg d = t.reg d := by
  unfold State.reg; rw [h]

@[simp] theorem reg_setFlag (f : Flag) (b : Bool) (d : Reg) : (s.setFlag f b).reg d = s.reg d := rfl
@[simp] theorem reg_jump (n : Int) (d : Reg) : (s.jump n).reg d = s.reg d := rfl
@[simp] theorem reg_advance (n : Nat) (d : Reg) : (s.advance n).reg d = s.reg d := rfl
@[simp] theorem reg_setSp (n : Int) (d : Reg) : (s.setSp n).reg d = s.reg d := rfl
@[simp] theorem reg_envWrite (l : EnvLoc) (v : Byte) (d : Reg) : (s.envWrite l v).reg d = s.reg d := rfl

/-- Below R31 the register after `d` is the next one. -/
theorem highOf_val {d : Reg} (h : d.val < 31) : (highOf d).val = d.val + 1 := by
  simp only [highOf, regOf]; omega

theorem highOf_ne (d : Reg) : highOf d ≠ d := by
  intro h
  have := congrArg Fin.val h
  simp only [highOf, regOf] at this
  omega

/-- A word is its high byte times 256 and its low byte. -/
theorem append_toNat (a b : Byte) : (a ++ b : Word).toNat = a.toNat * 256 + b.toNat := by
  have := b.isLt
  rw [BitVec.toNat_append, ← Nat.shiftLeft_add_eq_or_of_lt b.isLt, Nat.shiftLeft_eq]

theorem highByte_toNat (v : Word) : (highByte v).toNat = v.toNat / 256 := by
  have := v.isLt
  simp only [highByte, BitVec.toNat_setWidth, BitVec.toNat_ushiftRight, Nat.shiftRight_eq_div_pow]
  omega

theorem lowByte_toNat (v : Word) : (lowByte v).toNat = v.toNat % 256 := by
  simp only [lowByte, BitVec.toNat_setWidth]

theorem high_append_low (v : Word) : (highByte v ++ lowByte v : Word) = v := by
  apply BitVec.eq_of_toNat_eq
  rw [append_toNat, highByte_toNat, lowByte_toNat]
  omega

@[simp] theorem reg_setPair_low (d : Reg) (v : Word) : (s.setPair d v).reg d = lowByte v := by
  simp [State.setPair]

@[simp] theorem reg_setPair_high (d : Reg) (v : Word) : (s.setPair d v).reg (highOf d) = highByte v := by
  simp [State.setPair, reg_setReg_other _ (highOf_ne d)]

theorem reg_setPair_other {d e : Reg} (h : e ≠ d) (h' : e ≠ highOf d) (v : Word) :
    (s.setPair d v).reg e = s.reg e := by
  rw [State.setPair, reg_setReg_other _ h, reg_setReg_other _ h']

@[simp] theorem pair_setPair (d : Reg) (v : Word) : (s.setPair d v).pair d = v := by
  simp [State.pair, high_append_low]

theorem setPair_eq (d : Reg) (v : Word) : s.setPair d v = { s with regs := (s.setPair d v).regs } := rfl

/-! ### Flags -/

@[simp] theorem flagOf_putFlag_same (x : Byte) (f : Flag) (b : Bool) : flagOf (putFlag x f b) f = b := by
  cases f <;> cases b <;> simp [flagOf, putFlag, Flag.bit]

theorem flagOf_putFlag_other (x : Byte) {f g : Flag} (h : g ≠ f) (b : Bool) :
    flagOf (putFlag x f b) g = flagOf x g := by
  cases f <;> cases g <;> first | exact absurd rfl h | (cases b <;> simp [flagOf, putFlag, Flag.bit])

/-- A status byte is its eight flags. -/
theorem sreg_ext {x y : Byte} (h : ∀ f, flagOf x f = flagOf y f) : x = y := by
  apply BitVec.eq_of_getLsbD_eq
  intro i hi
  have := h .c; have := h .z; have := h .n; have := h .v
  have := h .s; have := h .h; have := h .t; have := h .i
  simp only [flagOf, Flag.bit] at *
  interval_cases i <;> assumption

@[simp] theorem flagOf_sregOf_i (i t h s v n z c : Bool) : flagOf (sregOf i t h s v n z c) .i = i := by
  revert i t h s v n z c; decide
@[simp] theorem flagOf_sregOf_t (i t h s v n z c : Bool) : flagOf (sregOf i t h s v n z c) .t = t := by
  revert i t h s v n z c; decide
@[simp] theorem flagOf_sregOf_h (i t h s v n z c : Bool) : flagOf (sregOf i t h s v n z c) .h = h := by
  revert i t h s v n z c; decide
@[simp] theorem flagOf_sregOf_s (i t h s v n z c : Bool) : flagOf (sregOf i t h s v n z c) .s = s := by
  revert i t h s v n z c; decide
@[simp] theorem flagOf_sregOf_v (i t h s v n z c : Bool) : flagOf (sregOf i t h s v n z c) .v = v := by
  revert i t h s v n z c; decide
@[simp] theorem flagOf_sregOf_n (i t h s v n z c : Bool) : flagOf (sregOf i t h s v n z c) .n = n := by
  revert i t h s v n z c; decide
@[simp] theorem flagOf_sregOf_z (i t h s v n z c : Bool) : flagOf (sregOf i t h s v n z c) .z = z := by
  revert i t h s v n z c; decide
@[simp] theorem flagOf_sregOf_c (i t h s v n z c : Bool) : flagOf (sregOf i t h s v n z c) .c = c := by
  revert i t h s v n z c; decide

/-! ### Extension registers -/

theorem getLsbD_ite (p : Prop) [Decidable p] (x : Byte) (k : Nat) :
    (if p then x else 0).getLsbD k = (decide p && x.getLsbD k) := by
  split <;> simp [*]

/-- A device implements bit `k` of an extension register exactly where some address up to `top` has bit `16 + k`. -/
theorem neededBits_getLsbD (top k : Nat) : (neededBits top).getLsbD k = decide (k < 8 ∧ 2 ^ (16 + k) ≤ top) := by
  by_cases h : k < 8
  · simp only [neededBits, List.range, List.range.loop, List.map, List.foldl, BitVec.getLsbD_or, getLsbD_ite]
    interval_cases k <;> simp
  · simp [h, BitVec.getLsbD_of_ge _ k (Nat.not_lt.mp h)]

/-- What a pointer's RAMP register keeps of a byte written to it. -/
@[simp] theorem rampOf_setRamp (p : Ptr) (v : Byte) :
    (s.setRamp p v).rampOf p = v &&& keptBits s.cfg (Ptr.ramp p) := by
  cases p <;> rfl

theorem rampOf_setRamp_other {p q : Ptr} (h : q ≠ p) (v : Byte) : (s.setRamp p v).rampOf q = s.rampOf q := by
  cases p <;> cases q <;> first | rfl | exact absurd rfl h

/-- A pointer's RAMP register written is a change of the three RAMP registers alone. -/
theorem setRamp_only (p : Ptr) (v : Byte) :
    { s.setRamp p v with rampx := s.rampx, rampy := s.rampy, rampz := s.rampz } = s := by
  cases p <;> rfl

/-! ### Program counter and stack pointer -/

/-- The model's wrapping of a word address is the claims' (R24). -/
theorem wrapPc_eq (c : Config) (n : Int) : wrapPc c n = pcAt c n := by
  obtain ⟨m, hm⟩ := Int.eq_ofNat_of_zero_le (Int.emod_nonneg n (b := 2 ^ c.pcBits) (by positivity))
  rw [wrapPc, pcAt]
  push_cast
  rw [hm]
  simp

theorem advance_eq (n : Nat) : s.advance n = { s with pc := s.nextPc n } := by
  simp only [State.advance, State.jump, State.nextPc, wrapPc_eq]

theorem jump_eq (n : Int) : s.jump n = { s with pc := pcAt s.cfg n } := by
  simp only [State.jump, wrapPc_eq]

theorem jumpRel_eq (k : Int) : s.jumpRel k = { s with pc := pcAt s.cfg (s.pc.toNat + 1 + k) } := by
  simp only [State.jumpRel, State.jump, wrapPc_eq]

/-- The model's wrapping of a stack pointer value is the claims' (R35). -/
theorem wrapSp_eq (c : Config) (n : Int) : wrapSp c n = spAt c n := by
  obtain ⟨m, hm⟩ := Int.eq_ofNat_of_zero_le (Int.emod_nonneg n (b := 2 ^ c.spBits) (by positivity))
  rw [wrapSp, spAt]
  push_cast
  rw [hm]
  simp

theorem setSp_eq (n : Int) : s.setSp n = { s with sp := spAt s.cfg n } := by
  simp only [State.setSp, wrapSp_eq]

/-- A word address of at most 22 bits is within PC_BITS. -/
theorem pcAt_lt {c : Config} (h : Config.sound c) (n : Int) : (pcAt c n).toNat < 2 ^ c.pcBits := by
  rw [← wrapPc_eq, wrapPc, BitVec.toNat_ofNat]
  have := Int.emod_lt_of_pos n (b := 2 ^ c.pcBits) (by positivity)
  have := Int.emod_nonneg n (b := 2 ^ c.pcBits) (by positivity)
  push_cast
  rcases h.1 with e | e <;> rw [e] at * <;> omega

theorem spAt_lt (c : Config) (n : Int) : (spAt c n).toNat < 2 ^ c.spBits := by
  rw [← wrapSp_eq, wrapSp, BitVec.toNat_ofNat]
  have low := Int.emod_nonneg n (b := 2 ^ c.spBits) (by positivity)
  have high := Int.emod_lt_of_pos n (b := 2 ^ c.spBits) (by positivity)
  push_cast
  exact lt_of_le_of_lt (Nat.mod_le _ _) (by
    rw [← Int.ofNat_lt, Int.toNat_of_nonneg low]; exact_mod_cast high)

/-- Within its width a stack pointer value is not changed by wrapping. -/
theorem spAt_of_lt {c : Config} {n : Nat} (h : n < 2 ^ c.spBits) : spAt c n = BitVec.ofNat 16 n := by
  rw [spAt, Int.emod_eq_of_lt (by omega) (by exact_mod_cast h)]
  simp

end Sys2Proof.Machine
end

