-- ==== Sys2Proof/Laws/Ops.lean ====
section
/-! SUPPORT. For each shared operation, what it can do when it answers, and what makes it stop. -/

namespace Sys2Proof.Machine

/-! ### Sequencing -/

@[simp] theorem Res.andThen_next {α β : Type} (a : α) (f : α → Res β) :
    Res.andThen (.next a) f = f a := rfl
@[simp] theorem Res.andThen_fault {α β : Type} (r : Fault) (f : α → Res β) :
    Res.andThen (.fault r : Res α) f = .fault r := rfl
@[simp] theorem Res.andThen_refused {α β : Type} (r : Refusal) (f : α → Res β) :
    Res.andThen (.refused r : Res α) f = .refused r := rfl

/-- A sequence answers exactly where both of its parts do. -/
theorem Res.andThen_eq_next {α β : Type} {x : Res α} {f : α → Res β} {b : β} :
    x.andThen f = .next b ↔ ∃ a, x = .next a ∧ f a = .next b := by
  cases x <;> simp [Res.andThen]

/-! ### Reads -/

/-- `t` is `s` but for the environment's queue of answers, its counter of free answers and its trace. -/
def OnlyEnvRead (s t : State) : Prop :=
  t = { s with ioInputs := t.ioInputs, envDraws := t.envDraws, envTrace := t.envTrace }

theorem OnlyEnvRead.refl (s : State) : OnlyEnvRead s s := rfl

theorem envRead_only (s : State) (l : EnvLoc) : OnlyEnvRead s (s.envRead l).2 := by
  unfold State.envRead OnlyEnvRead
  split <;> rfl

theorem ioRead_only (s : State) (a : Nat) : OnlyEnvRead s (s.ioRead a).2 := by
  unfold State.ioRead
  split
  · rfl
  · exact envRead_only s _

/-- A data-space read that answers changes nothing but what the environment keeps. -/
theorem memRead_only {s t : State} {a : Nat} {v : Byte} (h : s.memRead a = .next (v, t)) : OnlyEnvRead s t := by
  unfold State.memRead at h
  split at h
  · cases h; rfl
  · injection h with h; rw [show t = (s.ioRead _).2 by rw [h]]; exact ioRead_only s _
  · injection h with h; rw [show t = (s.envRead _).2 by rw [h]]; exact envRead_only s _
  · cases h; rfl
  · cases h

/-- A data-space read answers at every mapped address. -/
theorem memRead_mapped {s : State} {a : Nat} (h : s.mapped a) : ∃ v t, s.memRead a = .next (v, t) := by
  unfold State.mapped at h
  unfold State.memRead
  split
  · exact ⟨_, _, rfl⟩
  · exact ⟨_, _, rfl⟩
  · exact ⟨_, _, rfl⟩
  · exact ⟨_, _, rfl⟩
  · exact absurd ‹_› h

theorem memRead_unmapped {s : State} {a : Nat} (h : ¬s.mapped a) : s.memRead a = .refused (.unmappedData a) := by
  have : placeOf s.cfg a = .nothing := not_not.mp h
  simp only [State.memRead, this]

theorem memRead_sram {s : State} {a : Nat} (h : placeOf s.cfg a = .sram) : s.memRead a = .next (s.sramAt a, s) := by
  simp only [State.memRead, h]

/-! ### Writes -/

theorem memWrite_mapped {s : State} {a : Nat} (h : s.mapped a) (v : Byte) : ∃ t, s.memWrite a v = .next t := by
  unfold State.mapped at h
  unfold State.memWrite
  split
  · exact ⟨_, rfl⟩
  · exact ⟨_, rfl⟩
  · exact ⟨_, rfl⟩
  · exact ⟨_, rfl⟩
  · exact absurd ‹_› h

theorem memWrite_unmapped {s : State} {a : Nat} (h : ¬s.mapped a) (v : Byte) :
    s.memWrite a v = .refused (.unmappedData a) := by
  have : placeOf s.cfg a = .nothing := not_not.mp h
  simp only [State.memWrite, this]

theorem memWrite_sram {s : State} {a : Nat} (h : placeOf s.cfg a = .sram) (v : Byte) :
    s.memWrite a v = .next { s with sram := memPut sramBlank s.sram a v } := by
  simp only [State.memWrite, h]

/-- Everything a data-space write can do: a register, a CPU register the device has, the environment, or SRAM. -/
theorem memWrite_cases {s t : State} {a : Nat} {v : Byte} (h : s.memWrite a v = .next t) :
    (∃ d, placeOf s.cfg a = .register d ∧ t = s.setReg d v) ∨
    (∃ loc r, placeOf s.cfg a = .io loc ∧ cpuRegAt s.cfg loc = some r ∧ t = s.writeCpu r v) ∨
    (∃ l, t = s.envWrite l v) ∨
    (placeOf s.cfg a = .sram ∧ t = { s with sram := memPut sramBlank s.sram a v }) := by
  unfold State.memWrite at h
  split at h
  · cases h; exact .inl ⟨_, ‹_›, rfl⟩
  · injection h with h
    unfold State.ioWrite at h
    split at h
    · exact .inr (.inl ⟨_, _, ‹_›, ‹_›, h.symm⟩)
    · exact .inr (.inr (.inl ⟨_, h.symm⟩))
  · injection h with h; exact .inr (.inr (.inl ⟨_, h.symm⟩))
  · injection h with h; exact .inr (.inr (.inr ⟨‹_›, h.symm⟩))
  · cases h

/-- What no write of the data space reaches: the device, pc, program memory, the interrupt requests, sleep, and the
environment's inputs. -/
structure BeyondWrites (s t : State) : Prop where
  cfg : t.cfg = s.cfg
  pc : t.pc = s.pc
  flash : t.flash = s.flash
  irqPending : t.irqPending = s.irqPending
  sleeping : t.sleeping = s.sleeping
  ioInputs : t.ioInputs = s.ioInputs
  envDraws : t.envDraws = s.envDraws
  envTicks : t.envTicks = s.envTicks

theorem BeyondWrites.refl (s : State) : BeyondWrites s s := ⟨rfl, rfl, rfl, rfl, rfl, rfl, rfl, rfl⟩

theorem BeyondWrites.trans {s t u : State} (h : BeyondWrites s t) (h' : BeyondWrites t u) : BeyondWrites s u :=
  ⟨h'.cfg.trans h.cfg, h'.pc.trans h.pc, h'.flash.trans h.flash, h'.irqPending.trans h.irqPending,
    h'.sleeping.trans h.sleeping, h'.ioInputs.trans h.ioInputs, h'.envDraws.trans h.envDraws,
    h'.envTicks.trans h.envTicks⟩

theorem setSp_beyond (s : State) (n : Int) : BeyondWrites s (s.setSp n) := ⟨rfl, rfl, rfl, rfl, rfl, rfl, rfl, rfl⟩

theorem writeCpu_beyond (s : State) (r : CpuReg) (v : Byte) : BeyondWrites s (s.writeCpu r v) := by
  cases r <;> exact ⟨rfl, rfl, rfl, rfl, rfl, rfl, rfl, rfl⟩

theorem memWrite_beyond {s t : State} {a : Nat} {v : Byte} (h : s.memWrite a v = .next t) : BeyondWrites s t := by
  rcases memWrite_cases h with ⟨_, _, rfl⟩ | ⟨_, _, _, _, rfl⟩ | ⟨_, rfl⟩ | ⟨_, rfl⟩
  · exact ⟨rfl, rfl, rfl, rfl, rfl, rfl, rfl, rfl⟩
  · exact writeCpu_beyond s _ v
  · exact ⟨rfl, rfl, rfl, rfl, rfl, rfl, rfl, rfl⟩
  · exact ⟨rfl, rfl, rfl, rfl, rfl, rfl, rfl, rfl⟩

/-! ### The stack -/

theorem push8_beyond {s t : State} {v : Byte} (h : s.push8 v = .next t) : BeyondWrites s t := by
  obtain ⟨u, hu, h⟩ := Res.andThen_eq_next.mp h
  injection h with h
  exact h ▸ (memWrite_beyond hu).trans (setSp_beyond u _)

theorem pushRet_beyond {s t : State} {a : PAddr} (h : s.pushRet a = .next t) : BeyondWrites s t := by
  obtain ⟨u, hu, h⟩ := Res.andThen_eq_next.mp h
  obtain ⟨w, hw, h⟩ := Res.andThen_eq_next.mp h
  have two := (push8_beyond hu).trans (push8_beyond hw)
  split at h
  · exact two.trans (push8_beyond h)
  · injection h with h; exact h ▸ two

/-- SRAM begins above the I/O space, so an address of SRAM is nothing else. -/
theorem placeOf_sram {c : Config} (h : Config.sound c) {a : Nat} (low : c.sramStart ≤ a) (high : a ≤ c.ramEnd) :
    placeOf c a = .sram := by
  obtain ⟨-, -, -, -, io, gap, -⟩ := h
  have h1 : ¬a ≤ 31 := by omega
  have h2 : ¬a ≤ c.ioBase + 63 := by omega
  have h3 : ¬a < c.sramStart := by omega
  simp [placeOf, h1, h2, h3, low, high]

/-- An address the map calls SRAM lies within it. -/
theorem placeOf_sram_range {c : Config} {a : Nat} (h : placeOf c a = .sram) : c.sramStart ≤ a ∧ a ≤ c.ramEnd := by
  unfold placeOf at h
  split_ifs at h
  simpa using ‹(decide (c.sramStart ≤ a) && decide (a ≤ c.ramEnd)) = true›

/-- A push on a stack in SRAM: the byte at SP, SP one lower. -/
theorem push8_sram {s : State} (h : s.roomBelow 1) (v : Byte) :
    s.push8 v = .next { s with
      sram := memPut sramBlank s.sram s.sp.toNat v, sp := BitVec.ofNat 16 (s.sp.toNat - 1) } := by
  obtain ⟨sound, width, low, high⟩ := h
  have pos : 1 ≤ s.sp.toNat := by obtain ⟨-, -, -, -, io, gap, -⟩ := sound; omega
  rw [State.push8, memWrite_sram (placeOf_sram sound (by omega) high)]
  simp only [Res.andThen_next, setSp_eq]
  rw [show ((s.sp.toNat : Int) - 1) = ((s.sp.toNat - 1 : Nat) : Int) by omega, spAt_of_lt (by omega)]

/-- A pop from a stack in SRAM: SP one higher, the byte there. -/
theorem pop8_sram {s : State} (h : s.bytesAbove 1) :
    s.pop8 = .next (s.sramAt (s.sp.toNat + 1), { s with sp := BitVec.ofNat 16 (s.sp.toNat + 1) }) := by
  obtain ⟨sound, width, low, high⟩ := h
  have w16 : (2 : Nat) ^ s.cfg.spBits ≤ 2 ^ 16 := Nat.pow_le_pow_right (by decide) sound.2.2.2.1
  have value : (BitVec.ofNat 16 (s.sp.toNat + 1)).toNat = s.sp.toNat + 1 := by
    rw [BitVec.toNat_ofNat, Nat.mod_eq_of_lt (by omega)]
  have eq : s.setSp (s.sp.toNat + 1) = { s with sp := BitVec.ofNat 16 (s.sp.toNat + 1) } := by
    rw [setSp_eq, show ((s.sp.toNat : Int) + 1) = ((s.sp.toNat + 1 : Nat) : Int) by omega, spAt_of_lt width]
  rw [State.pop8, eq]
  simp only [value]
  exact memRead_sram (placeOf_sram sound low high)

/-! ### Program memory -/

theorem progWord_inside {s : State} {a : Nat} (h : a ≤ s.cfg.flashEnd) :
    s.progWord a = .next (s.flashAt (2 * a + 1) ++ s.flashAt (2 * a)) := by
  simp [State.progWord, h]

theorem progWord_outside {s : State} {a : Nat} (h : s.cfg.flashEnd < a) :
    s.progWord a = .refused (.unmappedProgram a) := by
  simp [State.progWord, Nat.not_le.mpr h]

/-- A program byte is the byte of program memory at its address (R62). -/
theorem progByte_inside {s : State} {b : Nat} (h : b / 2 ≤ s.cfg.flashEnd) : s.progByte b = .next (s.flashAt b) := by
  rw [State.progByte, progWord_inside h, Res.andThen_next]
  congr 1
  split <;> apply BitVec.eq_of_toNat_eq
  · rw [lowByte_toNat, append_toNat, show 2 * (b / 2) = b by omega]
    have := (s.flashAt b).isLt
    omega
  · rw [highByte_toNat, append_toNat, show 2 * (b / 2) + 1 = b by omega]
    have := (s.flashAt (2 * (b / 2))).isLt
    omega

theorem progByte_outside {s : State} {b : Nat} (h : s.cfg.flashEnd < b / 2) :
    s.progByte b = .refused (.unmappedProgram (b / 2)) := by
  rw [State.progByte, progWord_outside h, Res.andThen_refused]

theorem nextWord_eq (s : State) : s.nextWord = s.progWord (s.nextPc 1).toNat := by
  rw [State.nextWord, show wrapPc s.cfg (s.pc.toNat + 1) = s.nextPc 1 from wrapPc_eq _ _]

/-- The word at pc + 1, taken modulo 2^PC_BITS. -/
theorem nextWord_inside {s : State} (h : (s.nextPc 1).toNat ≤ s.cfg.flashEnd) :
    s.nextWord = .next (s.flashAt (2 * (s.nextPc 1).toNat + 1) ++ s.flashAt (2 * (s.nextPc 1).toNat)) := by
  rw [nextWord_eq, progWord_inside h]

theorem nextWord_outside {s : State} (h : s.cfg.flashEnd < (s.nextPc 1).toNat) :
    s.nextWord = .refused (.unmappedProgram (s.nextPc 1).toNat) := by
  rw [nextWord_eq, progWord_outside h]

/-! ### The skip -/

theorem skip_not (s : State) : s.skip false = .next { s with pc := s.nextPc 1 } := by
  unfold State.skip
  split <;> simp [advance_eq]

theorem skip_inside {s : State} (h : (s.nextPc 1).toNat ≤ s.cfg.flashEnd) :
    s.skip true = .next { s with
      pc := if isTwoWord (s.flashAt (2 * (s.nextPc 1).toNat + 1) ++ s.flashAt (2 * (s.nextPc 1).toNat)) then s.nextPc 3
        else s.nextPc 2 } := by
  rw [State.skip, nextWord_inside h]
  simp only [if_true, advance_eq]
  split <;> rfl

theorem skip_outside {s : State} (h : s.cfg.flashEnd < (s.nextPc 1).toNat) :
    s.skip true = .refused (.unmappedProgram (s.nextPc 1).toNat) := by
  rw [State.skip, nextWord_outside h]
  rfl

/-- A skip that answers moves pc and nothing else. -/
theorem skip_next {s t : State} {cond : Bool} (h : s.skip cond = .next t) : t = { s with pc := t.pc } := by
  unfold State.skip at h
  split at h
  · injection h with h; rw [← h]; rfl
  · split at h
    · cases h
    · injection h with h; rw [← h]; rfl
  · split at h
    · cases h
    · injection h with h; rw [← h]; rfl

end Sys2Proof.Machine
end

