-- ==== Sys2Proof/Laws/PerInstr.lean ====
section
/-! SUPPORT. What holds of every instruction as syntax, constructor by constructor: it encodes to as many words as R90
gives it, another name of a core instruction has that instruction's words (R114), and what its rule admits the core
instruction's rule admits. -/

namespace Sys2Proof.Laws.WordsAgree

/-- The words of an instruction and of the core instruction it stands for agree. -/
def Statement (i : Instr) : Prop :=
  (encode i).length = i.words ∧ encode i.parent = encode i ∧ (i.wf = true → i.parent.wf = true)

theorem add (d : Reg) (r : Reg) : Statement (.add d r) := ⟨rfl, rfl, id⟩
theorem adc (d : Reg) (r : Reg) : Statement (.adc d r) := ⟨rfl, rfl, id⟩
theorem adiw (d : Reg) (k : BitVec 6) : Statement (.adiw d k) := ⟨rfl, rfl, id⟩
theorem sub (d : Reg) (r : Reg) : Statement (.sub d r) := ⟨rfl, rfl, id⟩
theorem subi (d : Reg) (k : Byte) : Statement (.subi d k) := ⟨rfl, rfl, id⟩
theorem sbc (d : Reg) (r : Reg) : Statement (.sbc d r) := ⟨rfl, rfl, id⟩
theorem sbci (d : Reg) (k : Byte) : Statement (.sbci d k) := ⟨rfl, rfl, id⟩
theorem sbiw (d : Reg) (k : BitVec 6) : Statement (.sbiw d k) := ⟨rfl, rfl, id⟩
theorem and (d : Reg) (r : Reg) : Statement (.and d r) := ⟨rfl, rfl, id⟩
theorem andi (d : Reg) (k : Byte) : Statement (.andi d k) := ⟨rfl, rfl, id⟩
theorem or (d : Reg) (r : Reg) : Statement (.or d r) := ⟨rfl, rfl, id⟩
theorem ori (d : Reg) (k : Byte) : Statement (.ori d k) := ⟨rfl, rfl, id⟩
theorem eor (d : Reg) (r : Reg) : Statement (.eor d r) := ⟨rfl, rfl, id⟩
theorem com (d : Reg) : Statement (.com d) := ⟨rfl, rfl, id⟩
theorem neg (d : Reg) : Statement (.neg d) := ⟨rfl, rfl, id⟩
theorem sbr (d : Reg) (k : Byte) : Statement (.sbr d k) := ⟨rfl, rfl, id⟩
theorem cbr (d : Reg) (k : Byte) : Statement (.cbr d k) := ⟨rfl, rfl, id⟩
theorem inc (d : Reg) : Statement (.inc d) := ⟨rfl, rfl, id⟩
theorem dec (d : Reg) : Statement (.dec d) := ⟨rfl, rfl, id⟩
theorem tst (d : Reg) : Statement (.tst d) := ⟨rfl, rfl, id⟩
theorem clr (d : Reg) : Statement (.clr d) := ⟨rfl, rfl, id⟩
theorem ser (d : Reg) : Statement (.ser d) := ⟨rfl, rfl, id⟩
theorem mul (d : Reg) (r : Reg) : Statement (.mul d r) := ⟨rfl, rfl, id⟩
theorem muls (d : Reg) (r : Reg) : Statement (.muls d r) := ⟨rfl, rfl, id⟩
theorem mulsu (d : Reg) (r : Reg) : Statement (.mulsu d r) := ⟨rfl, rfl, id⟩
theorem fmul (d : Reg) (r : Reg) : Statement (.fmul d r) := ⟨rfl, rfl, id⟩
theorem fmuls (d : Reg) (r : Reg) : Statement (.fmuls d r) := ⟨rfl, rfl, id⟩
theorem fmulsu (d : Reg) (r : Reg) : Statement (.fmulsu d r) := ⟨rfl, rfl, id⟩
theorem des (k : BitVec 4) : Statement (.des k) := ⟨rfl, rfl, id⟩
theorem rjmp (k : BitVec 12) : Statement (.rjmp k) := ⟨rfl, rfl, id⟩
theorem ijmp : Statement .ijmp := ⟨rfl, rfl, id⟩
theorem eijmp : Statement .eijmp := ⟨rfl, rfl, id⟩
theorem jmp (k : PAddr) : Statement (.jmp k) := ⟨rfl, rfl, id⟩
theorem rcall (k : BitVec 12) : Statement (.rcall k) := ⟨rfl, rfl, id⟩
theorem icall : Statement .icall := ⟨rfl, rfl, id⟩
theorem eicall : Statement .eicall := ⟨rfl, rfl, id⟩
theorem call (k : PAddr) : Statement (.call k) := ⟨rfl, rfl, id⟩
theorem ret : Statement .ret := ⟨rfl, rfl, id⟩
theorem reti : Statement .reti := ⟨rfl, rfl, id⟩
theorem cpse (d : Reg) (r : Reg) : Statement (.cpse d r) := ⟨rfl, rfl, id⟩
theorem cp (d : Reg) (r : Reg) : Statement (.cp d r) := ⟨rfl, rfl, id⟩
theorem cpc (d : Reg) (r : Reg) : Statement (.cpc d r) := ⟨rfl, rfl, id⟩
theorem cpi (d : Reg) (k : Byte) : Statement (.cpi d k) := ⟨rfl, rfl, id⟩
theorem sbrc (r : Reg) (b : BitVec 3) : Statement (.sbrc r b) := ⟨rfl, rfl, id⟩
theorem sbrs (r : Reg) (b : BitVec 3) : Statement (.sbrs r b) := ⟨rfl, rfl, id⟩
theorem sbic (a : BitVec 5) (b : BitVec 3) : Statement (.sbic a b) := ⟨rfl, rfl, id⟩
theorem sbis (a : BitVec 5) (b : BitVec 3) : Statement (.sbis a b) := ⟨rfl, rfl, id⟩
theorem brbs (s : BitVec 3) (k : BitVec 7) : Statement (.brbs s k) := ⟨rfl, rfl, id⟩
theorem brbc (s : BitVec 3) (k : BitVec 7) : Statement (.brbc s k) := ⟨rfl, rfl, id⟩
theorem breq (k : BitVec 7) : Statement (.breq k) := ⟨rfl, rfl, id⟩
theorem brne (k : BitVec 7) : Statement (.brne k) := ⟨rfl, rfl, id⟩
theorem brcs (k : BitVec 7) : Statement (.brcs k) := ⟨rfl, rfl, id⟩
theorem brcc (k : BitVec 7) : Statement (.brcc k) := ⟨rfl, rfl, id⟩
theorem brsh (k : BitVec 7) : Statement (.brsh k) := ⟨rfl, rfl, id⟩
theorem brlo (k : BitVec 7) : Statement (.brlo k) := ⟨rfl, rfl, id⟩
theorem brmi (k : BitVec 7) : Statement (.brmi k) := ⟨rfl, rfl, id⟩
theorem brpl (k : BitVec 7) : Statement (.brpl k) := ⟨rfl, rfl, id⟩
theorem brge (k : BitVec 7) : Statement (.brge k) := ⟨rfl, rfl, id⟩
theorem brlt (k : BitVec 7) : Statement (.brlt k) := ⟨rfl, rfl, id⟩
theorem brhs (k : BitVec 7) : Statement (.brhs k) := ⟨rfl, rfl, id⟩
theorem brhc (k : BitVec 7) : Statement (.brhc k) := ⟨rfl, rfl, id⟩
theorem brts (k : BitVec 7) : Statement (.brts k) := ⟨rfl, rfl, id⟩
theorem brtc (k : BitVec 7) : Statement (.brtc k) := ⟨rfl, rfl, id⟩
theorem brvs (k : BitVec 7) : Statement (.brvs k) := ⟨rfl, rfl, id⟩
theorem brvc (k : BitVec 7) : Statement (.brvc k) := ⟨rfl, rfl, id⟩
theorem brie (k : BitVec 7) : Statement (.brie k) := ⟨rfl, rfl, id⟩
theorem brid (k : BitVec 7) : Statement (.brid k) := ⟨rfl, rfl, id⟩
theorem mov (d : Reg) (r : Reg) : Statement (.mov d r) := ⟨rfl, rfl, id⟩
theorem movw (d : Reg) (r : Reg) : Statement (.movw d r) := ⟨rfl, rfl, id⟩
theorem ldi (d : Reg) (k : Byte) : Statement (.ldi d k) := ⟨rfl, rfl, id⟩
theorem lds (d : Reg) (k : Word) : Statement (.lds d k) := ⟨rfl, rfl, id⟩
theorem ldX (d : Reg) : Statement (.ldX d) := ⟨rfl, rfl, id⟩
theorem ldXInc (d : Reg) : Statement (.ldXInc d) := ⟨rfl, rfl, id⟩
theorem ldXDec (d : Reg) : Statement (.ldXDec d) := ⟨rfl, rfl, id⟩
theorem ldY (d : Reg) : Statement (.ldY d) := ⟨rfl, rfl, id⟩
theorem ldYInc (d : Reg) : Statement (.ldYInc d) := ⟨rfl, rfl, id⟩
theorem ldYDec (d : Reg) : Statement (.ldYDec d) := ⟨rfl, rfl, id⟩
theorem lddY (d : Reg) (q : BitVec 6) : Statement (.lddY d q) := ⟨rfl, rfl, id⟩
theorem ldZ (d : Reg) : Statement (.ldZ d) := ⟨rfl, rfl, id⟩
theorem ldZInc (d : Reg) : Statement (.ldZInc d) := ⟨rfl, rfl, id⟩
theorem ldZDec (d : Reg) : Statement (.ldZDec d) := ⟨rfl, rfl, id⟩
theorem lddZ (d : Reg) (q : BitVec 6) : Statement (.lddZ d q) := ⟨rfl, rfl, id⟩
theorem sts (k : Word) (r : Reg) : Statement (.sts k r) := ⟨rfl, rfl, id⟩
theorem stX (r : Reg) : Statement (.stX r) := ⟨rfl, rfl, id⟩
theorem stXInc (r : Reg) : Statement (.stXInc r) := ⟨rfl, rfl, id⟩
theorem stXDec (r : Reg) : Statement (.stXDec r) := ⟨rfl, rfl, id⟩
theorem stY (r : Reg) : Statement (.stY r) := ⟨rfl, rfl, id⟩
theorem stYInc (r : Reg) : Statement (.stYInc r) := ⟨rfl, rfl, id⟩
theorem stYDec (r : Reg) : Statement (.stYDec r) := ⟨rfl, rfl, id⟩
theorem stdY (q : BitVec 6) (r : Reg) : Statement (.stdY q r) := ⟨rfl, rfl, id⟩
theorem stZ (r : Reg) : Statement (.stZ r) := ⟨rfl, rfl, id⟩
theorem stZInc (r : Reg) : Statement (.stZInc r) := ⟨rfl, rfl, id⟩
theorem stZDec (r : Reg) : Statement (.stZDec r) := ⟨rfl, rfl, id⟩
theorem stdZ (q : BitVec 6) (r : Reg) : Statement (.stdZ q r) := ⟨rfl, rfl, id⟩
theorem lpmR0 : Statement .lpmR0 := ⟨rfl, rfl, id⟩
theorem lpmZ (d : Reg) : Statement (.lpmZ d) := ⟨rfl, rfl, id⟩
theorem lpmZInc (d : Reg) : Statement (.lpmZInc d) := ⟨rfl, rfl, id⟩
theorem elpmR0 : Statement .elpmR0 := ⟨rfl, rfl, id⟩
theorem elpmZ (d : Reg) : Statement (.elpmZ d) := ⟨rfl, rfl, id⟩
theorem elpmZInc (d : Reg) : Statement (.elpmZInc d) := ⟨rfl, rfl, id⟩
theorem spm : Statement .spm := ⟨rfl, rfl, id⟩
theorem spmZInc : Statement .spmZInc := ⟨rfl, rfl, id⟩
theorem in_ (d : Reg) (a : BitVec 6) : Statement (.in_ d a) := ⟨rfl, rfl, id⟩
theorem out (a : BitVec 6) (r : Reg) : Statement (.out a r) := ⟨rfl, rfl, id⟩
theorem push (r : Reg) : Statement (.push r) := ⟨rfl, rfl, id⟩
theorem pop (d : Reg) : Statement (.pop d) := ⟨rfl, rfl, id⟩
theorem lsl (d : Reg) : Statement (.lsl d) := ⟨rfl, rfl, id⟩
theorem lsr (d : Reg) : Statement (.lsr d) := ⟨rfl, rfl, id⟩
theorem rol (d : Reg) : Statement (.rol d) := ⟨rfl, rfl, id⟩
theorem ror (d : Reg) : Statement (.ror d) := ⟨rfl, rfl, id⟩
theorem asr (d : Reg) : Statement (.asr d) := ⟨rfl, rfl, id⟩
theorem swap (d : Reg) : Statement (.swap d) := ⟨rfl, rfl, id⟩
theorem bset (s : BitVec 3) : Statement (.bset s) := ⟨rfl, rfl, id⟩
theorem bclr (s : BitVec 3) : Statement (.bclr s) := ⟨rfl, rfl, id⟩
theorem sbi (a : BitVec 5) (b : BitVec 3) : Statement (.sbi a b) := ⟨rfl, rfl, id⟩
theorem cbi (a : BitVec 5) (b : BitVec 3) : Statement (.cbi a b) := ⟨rfl, rfl, id⟩
theorem bst (r : Reg) (b : BitVec 3) : Statement (.bst r b) := ⟨rfl, rfl, id⟩
theorem bld (d : Reg) (b : BitVec 3) : Statement (.bld d b) := ⟨rfl, rfl, id⟩
theorem sec : Statement .sec := ⟨rfl, rfl, id⟩
theorem clc : Statement .clc := ⟨rfl, rfl, id⟩
theorem sen : Statement .sen := ⟨rfl, rfl, id⟩
theorem cln : Statement .cln := ⟨rfl, rfl, id⟩
theorem sez : Statement .sez := ⟨rfl, rfl, id⟩
theorem clz : Statement .clz := ⟨rfl, rfl, id⟩
theorem sei : Statement .sei := ⟨rfl, rfl, id⟩
theorem cli : Statement .cli := ⟨rfl, rfl, id⟩
theorem ses : Statement .ses := ⟨rfl, rfl, id⟩
theorem cls : Statement .cls := ⟨rfl, rfl, id⟩
theorem sev : Statement .sev := ⟨rfl, rfl, id⟩
theorem clv : Statement .clv := ⟨rfl, rfl, id⟩
theorem set : Statement .set := ⟨rfl, rfl, id⟩
theorem clt : Statement .clt := ⟨rfl, rfl, id⟩
theorem seh : Statement .seh := ⟨rfl, rfl, id⟩
theorem clh : Statement .clh := ⟨rfl, rfl, id⟩
theorem brk : Statement .brk := ⟨rfl, rfl, id⟩
theorem nop : Statement .nop := ⟨rfl, rfl, id⟩
theorem sleep : Statement .sleep := ⟨rfl, rfl, id⟩
theorem wdr : Statement .wdr := ⟨rfl, rfl, id⟩

end Sys2Proof.Laws.WordsAgree
end

