-- ==== Sys2Proof/Tests/Slice0.lean ====
section
/-! SUPPORT. The model's own tests: ill-formed terms that WellFormed refuses; the spec's words and vectors
(95_test_vectors.md, V and I numbers), each one step on a small state; and a witness for the hypotheses of every
statement that has any. -/

namespace Sys2Proof.Tests

open Sys2Proof.Machine

/-! ### WellFormed refuses -/

theorem test_upper_refuses : (Instr.ldi 15 0xFF).wf = false := by decide
theorem test_middle_refuses_low : (Instr.mulsu 15 16).wf = false := by decide
theorem test_middle_refuses_high : (Instr.fmul 16 24).wf = false := by decide
theorem test_muls_refuses : (Instr.muls 16 15).wf = false := by decide
theorem test_even_refuses : (Instr.movw 0 1).wf = false := by decide
theorem test_topPair_refuses_low : (Instr.adiw 22 1).wf = false := by decide
theorem test_topPair_refuses_odd : (Instr.sbiw 25 1).wf = false := by decide
theorem test_offPointer_refuses_low : (Instr.ldXInc 26).wf = false := by decide
theorem test_offPointer_refuses_high : (Instr.stZDec 31).wf = false := by decide

/-! ### Decoding: words the spec writes out, the other names of R114 among them -/

/-- Each first word, with the second word given, decodes to the instruction (or the one it is another name of), and is
its encoding. -/
def decodesTo (l : List (Instr × Word × Word)) : Bool :=
  l.all fun (i, w, k) => decodeWords w k = some i.parent && encode i = if isTwoWord w then [w, k] else [w]

theorem test_decode_arithmetic : decodesTo [
  (.add 28 28, 0b0000111111001100, 0), (.adc 3 1, 0b0001110000110001, 0), (.adiw 30 63, 0b1001011011111111, 0),
  (.sub 16 16, 0b0001101100000000, 0), (.subi 16 1, 0b0101000000000001, 0), (.sbc 1 3, 0b0000100000010011, 0),
  (.sbci 17 0x0F, 0b0100000000011111, 0), (.sbiw 30 63, 0b1001011111111111, 0), (.and 2 3, 0b0010000000100011, 0),
  (.andi 16 0x0F, 0b0111000000001111, 0), (.or 18 19, 0b0010101100100011, 0),
  (.ori 16 0xF0, 0b0110111100000000, 0), (.eor 4 5, 0b0010010001000101, 0), (.com 4, 0b1001010001000000, 0),
  (.neg 11, 0b1001010010110001, 0), (.sbr 16 0x03, 0b0110000000000011, 0), (.cbr 16 0xF0, 0b0111000000001111, 0),
  (.inc 20, 0b1001010101000011, 0), (.dec 20, 0b1001010101001010, 0), (.tst 0, 0b0010000000000000, 0),
  (.clr 1, 0b0010010000010001, 0), (.ser 17, 0b1110111100011111, 0), (.mul 16 17, 0b1001111100000001, 0),
  (.muls 16 17, 0b0000001000000001, 0), (.mulsu 16 17, 0b0000001100000001, 0),
  (.fmul 16 17, 0b0000001100001001, 0), (.fmuls 16 17, 0b0000001110000001, 0),
  (.fmulsu 16 17, 0b0000001110001001, 0), (.des 5, 0b1001010001011011, 0)] = true := by decide

theorem test_decode_branches : decodesTo [
  (.rjmp 2047, 0b1100011111111111, 0), (.ijmp, 0b1001010000001001, 0), (.eijmp, 0b1001010000011001, 0),
  (.jmp 0x012345, 0b1001010000001101, 0x2345), (.rcall 5, 0b1101000000000101, 0), (.icall, 0b1001010100001001, 0),
  (.eicall, 0b1001010100011001, 0), (.call 0x000200, 0b1001010000001110, 0x0200), (.ret, 0b1001010100001000, 0),
  (.reti, 0b1001010100011000, 0), (.cpse 4 0, 0b0001000001000000, 0), (.cp 2 0, 0b0001010000100000, 0),
  (.cpc 3 1, 0b0000010000110001, 0), (.cpi 19 0x80, 0b0011100000110000, 0), (.sbrc 0 7, 0b1111110000000111, 0),
  (.sbrs 0 7, 0b1111111000000111, 0), (.sbic 0x1C 1, 0b1001100111100001, 0), (.sbis 0x10 3, 0b1001101110000011, 0),
  (.brbs 0 63, 0b1111000111111000, 0), (.brbc 0 (-64), 0b1111011000000000, 0), (.breq 3, 0b1111000000011001, 0),
  (.brne (-2), 0b1111011111110001, 0), (.brcs 4, 0b1111000000100000, 0), (.brcc 4, 0b1111010000100000, 0),
  (.brsh 1, 0b1111010000001000, 0), (.brlo 1, 0b1111000000001000, 0), (.brmi 1, 0b1111000000001010, 0),
  (.brpl 1, 0b1111010000001010, 0), (.brge 1, 0b1111010000001100, 0), (.brlt 1, 0b1111000000001100, 0),
  (.brhs 1, 0b1111000000001101, 0), (.brhc 1, 0b1111010000001101, 0), (.brts 1, 0b1111000000001110, 0),
  (.brtc 1, 0b1111010000001110, 0), (.brvs 1, 0b1111000000001011, 0), (.brvc 1, 0b1111010000001011, 0),
  (.brie 1, 0b1111000000001111, 0), (.brid 1, 0b1111010000001111, 0)] = true := by decide

theorem test_decode_transfers : decodesTo [
  (.mov 16 0, 0b0010110100000000, 0), (.movw 30 24, 0b0000000111111100, 0), (.ldi 16 0xA5, 0b1110101000000101, 0),
  (.lds 2 0x0900, 0b1001000000100000, 0x0900), (.ldX 5, 0b1001000001011100, 0),
  (.ldXInc 26, 0b1001000110101101, 0), (.ldXDec 0, 0b1001000000001110, 0), (.ldY 1, 0b1000000000011000, 0),
  (.ldYInc 1, 0b1001000000011001, 0), (.ldYDec 1, 0b1001000000011010, 0), (.lddY 4 2, 0b1000000001001010, 0),
  (.ldZ 2, 0b1000000000100000, 0), (.ldZInc 2, 0b1001000000100001, 0), (.ldZDec 2, 0b1001000000100010, 0),
  (.lddZ 4 63, 0b1010110001000111, 0), (.sts 0x0100 2, 0b1001001000100000, 0x0100),
  (.stX 0, 0b1001001000001100, 0), (.stXInc 0, 0b1001001000001101, 0), (.stXDec 0, 0b1001001000001110, 0),
  (.stY 1, 0b1000001000011000, 0), (.stYInc 1, 0b1001001000011001, 0), (.stYDec 28, 0b1001001111001010, 0),
  (.stdY 2 4, 0b1000001001001010, 0), (.stZ 2, 0b1000001000100000, 0), (.stZInc 2, 0b1001001000100001, 0),
  (.stZDec 2, 0b1001001000100010, 0), (.stdZ 63 4, 0b1010111001000111, 0), (.lpmR0, 0b1001010111001000, 0),
  (.lpmZ 0, 0b1001000000000100, 0), (.lpmZInc 30, 0b1001000111100101, 0), (.elpmR0, 0b1001010111011000, 0),
  (.elpmZ 16, 0b1001000100000110, 0), (.elpmZInc 16, 0b1001000100000111, 0), (.spm, 0b1001010111101000, 0),
  (.spmZInc, 0b1001010111111000, 0), (.in_ 7 0x16, 0b1011001001110110, 0), (.out 0x18 7, 0b1011101001111000, 0),
  (.push 14, 0b1001001011101111, 0), (.pop 13, 0b1001000011011111, 0)] = true := by decide

theorem test_decode_bits : decodesTo [
  (.lsl 16, 0b0000111100000000, 0), (.lsr 16, 0b1001010100000110, 0), (.rol 16, 0b0001111100000000, 0),
  (.ror 16, 0b1001010100000111, 0), (.asr 16, 0b1001010100000101, 0), (.swap 16, 0b1001010100000010, 0),
  (.bset 7, 0b1001010001111000, 0), (.bclr 6, 0b1001010011101000, 0), (.sbi 0x18 3, 0b1001101011000011, 0),
  (.cbi 0x18 0, 0b1001100011000000, 0), (.bst 1 2, 0b1111101000010010, 0), (.bld 0 4, 0b1111100000000100, 0),
  (.sec, 0b1001010000001000, 0), (.clc, 0b1001010010001000, 0), (.sen, 0b1001010000101000, 0),
  (.cln, 0b1001010010101000, 0), (.sez, 0b1001010000011000, 0), (.clz, 0b1001010010011000, 0),
  (.sei, 0b1001010001111000, 0), (.cli, 0b1001010011111000, 0), (.ses, 0b1001010001001000, 0),
  (.cls, 0b1001010011001000, 0), (.sev, 0b1001010000111000, 0), (.clv, 0b1001010010111000, 0),
  (.set, 0b1001010001101000, 0), (.clt, 0b1001010011101000, 0), (.seh, 0b1001010001011000, 0),
  (.clh, 0b1001010011011000, 0)] = true := by decide

theorem test_decode_control : decodesTo [
  (.brk, 0b1001010110011000, 0), (.nop, 0b0000000000000000, 0), (.sleep, 0b1001010110001000, 0),
  (.wdr, 0b1001010110101000, 0)] = true := by decide

/-! ### One step -/

/-- A difference between two states. -/
inductive Patch where
  | reg (d : Reg) (v : Byte) | sreg (v : Byte) | pc (v : PAddr) | sp (v : Word) | data (a : Nat) (v : Byte)
  | code (a : Nat) (w : Word) | rampz (v : Byte) | eind (v : Byte) | input (v : Byte) | taken | told (e : EnvEvent)
  | holdoff (b : Bool) | sleeping (b : Bool) | pending (l : List Nat) | poll (l : List Nat) | polled
deriving DecidableEq, Repr

/-- The state with a difference applied. -/
def patch (s : State) : Patch → State
  | .reg d v => { s with regs := s.regs.set d v }
  | .sreg v => { s with sreg := v }
  | .pc v => { s with pc := v }
  | .sp v => { s with sp := v }
  | .data a v => { s with sram := memPut sramBlank s.sram a v }
  | .code a w => { s with flash := putProgWord s.flash a w }
  | .rampz v => { s with rampz := v }
  | .eind v => { s with eind := v }
  | .input v => { s with ioInputs := s.ioInputs ++ [v] }
  | .taken => { s with ioInputs := s.ioInputs.tail }
  | .told e => { s with envTrace := e :: s.envTrace }
  | .holdoff b => { s with irqHoldoff := b }
  | .sleeping b => { s with sleeping := b }
  | .pending l => { s with irqPending := l }
  | .poll l => { s with envTicks := s.envTicks ++ [{ poll := l, withdrawn := [], resetRequest := false }] }
  | .polled => { s with envTicks := s.envTicks.tail }

/-- The vectors' start state on a device, with differences. -/
def start (c : Config) (l : List Patch) : State := l.foldl patch { State.reset with cfg := c, sp := c.spReset }

/-- A step leads to the start state with the differences, and to no other. -/
def goesTo (s : State) (l : List Patch) : Bool := match step s with | .next t => t = l.foldl patch s | _ => false

def refuses (s : State) (r : Refusal) : Bool := match step s with | .refused x => x = r | _ => false

def faults (s : State) (r : Fault) : Bool := match step s with | .fault x => x = r | _ => false

theorem test_add_V1 :
    goesTo (start ref16 [.reg 1 0x7F, .reg 2 0x01, .code 0x0 0x0C12])
      [.reg 1 0x80, .sreg 0x2c, .pc 0x0001] := by decide
theorem test_adc_V5 :
    goesTo (start ref16 [.reg 1 0x00, .reg 3 0xFF, .sreg 0x01, .code 0x0 0x1C31])
      [.reg 3 0x00, .sreg 0x23, .pc 0x0001] := by decide
theorem test_adiw_V8 :
    goesTo (start ref16 [.reg 24 0xFF, .reg 25 0x7F, .code 0x0 0x9601])
      [.reg 24 0x00, .reg 25 0x80, .sreg 0x0c, .pc 0x0001] := by decide
theorem test_sub_V10 :
    goesTo (start ref16 [.reg 16 0x00, .reg 17 0x01, .code 0x0 0x1B01])
      [.reg 16 0xFF, .sreg 0x35, .pc 0x0001] := by decide
theorem test_subi_V12 :
    goesTo (start ref16 [.reg 16 0x80, .code 0x0 0x5001]) [.reg 16 0x7F, .sreg 0x38, .pc 0x0001] := by decide
theorem test_sbc_V13 :
    goesTo (start ref16 [.reg 1 0x01, .reg 3 0x00, .sreg 0x01, .code 0x0 0x0813])
      [.reg 1 0x00, .sreg 0x00, .pc 0x0001] := by decide
theorem test_sbci_V16 :
    goesTo (start ref16 [.reg 17 0x10, .sreg 0x03, .code 0x0 0x401F])
      [.reg 17 0x00, .sreg 0x22, .pc 0x0001] := by decide
theorem test_sbiw_V18 :
    goesTo (start ref16 [.reg 26 0x00, .reg 27 0x00, .code 0x0 0x9711])
      [.reg 26 0xFF, .reg 27 0xFF, .sreg 0x15, .pc 0x0001] := by decide
theorem test_and_V21 :
    goesTo (start ref16 [.reg 2 0xF0, .reg 3 0x0F, .sreg 0xe1, .code 0x0 0x2023])
      [.reg 2 0x00, .sreg 0xe3, .pc 0x0001] := by decide
theorem test_andi_V22 :
    goesTo (start ref16 [.reg 16 0xA5, .code 0x0 0x700F]) [.reg 16 0x05, .sreg 0x00, .pc 0x0001] := by decide
theorem test_or_V23 :
    goesTo (start ref16 [.reg 18 0x81, .reg 19 0x0E, .code 0x0 0x2B23])
      [.reg 18 0x8F, .sreg 0x14, .pc 0x0001] := by decide
theorem test_ori_V24 :
    goesTo (start ref16 [.reg 16 0x01, .code 0x0 0x6F00]) [.reg 16 0xF1, .sreg 0x14, .pc 0x0001] := by decide
theorem test_eor_V25 :
    goesTo (start ref16 [.reg 4 0xFF, .reg 5 0x0F, .code 0x0 0x2445])
      [.reg 4 0xF0, .sreg 0x14, .pc 0x0001] := by decide
theorem test_com_V26 :
    goesTo (start ref16 [.reg 4 0x00, .code 0x0 0x9440]) [.reg 4 0xFF, .sreg 0x15, .pc 0x0001] := by decide
theorem test_neg_V29 : goesTo (start ref16 [.reg 11 0x80, .code 0x0 0x94B1]) [.sreg 0x0d, .pc 0x0001] := by decide
theorem test_sbr_V31 :
    goesTo (start ref16 [.reg 16 0x80, .code 0x0 0x6003]) [.reg 16 0x83, .sreg 0x14, .pc 0x0001] := by decide
theorem test_cbr_V32 :
    goesTo (start ref16 [.reg 16 0xFF, .code 0x0 0x700F]) [.reg 16 0x0F, .sreg 0x00, .pc 0x0001] := by decide
theorem test_inc_V33 :
    goesTo (start ref16 [.reg 20 0x7F, .sreg 0x01, .code 0x0 0x9543])
      [.reg 20 0x80, .sreg 0x0d, .pc 0x0001] := by decide
theorem test_dec_V35 :
    goesTo (start ref16 [.reg 20 0x80, .code 0x0 0x954A]) [.reg 20 0x7F, .sreg 0x18, .pc 0x0001] := by decide
theorem test_tst_V39 : goesTo (start ref16 [.reg 0 0x80, .code 0x0 0x2000]) [.sreg 0x14, .pc 0x0001] := by decide
theorem test_clr_V40 :
    goesTo (start ref16 [.reg 1 0x55, .sreg 0x1c, .code 0x0 0x2411])
      [.reg 1 0x00, .sreg 0x02, .pc 0x0001] := by decide
theorem test_ser_V41 :
    goesTo (start ref16 [.reg 17 0x00, .sreg 0x02, .code 0x0 0xEF1F])
      [.reg 17 0xFF, .sreg 0x02, .pc 0x0001] := by decide
theorem test_mul_V42 :
    goesTo (start ref16 [.reg 16 0xFF, .reg 17 0xFF, .code 0x0 0x9F01])
      [.reg 0 0x01, .reg 1 0xFE, .sreg 0x01, .pc 0x0001] := by decide
theorem test_muls_V44 :
    goesTo (start ref16 [.reg 16 0xFF, .reg 17 0x02, .code 0x0 0x0201])
      [.reg 0 0xFE, .reg 1 0xFF, .sreg 0x01, .pc 0x0001] := by decide
theorem test_mulsu_V46 :
    goesTo (start ref16 [.reg 16 0xFF, .reg 17 0xFF, .code 0x0 0x0301])
      [.reg 0 0x01, .reg 1 0xFF, .sreg 0x01, .pc 0x0001] := by decide
theorem test_fmul_V48 :
    goesTo (start ref16 [.reg 16 0xFF, .reg 17 0xFF, .code 0x0 0x0309])
      [.reg 0 0x02, .reg 1 0xFC, .sreg 0x01, .pc 0x0001] := by decide
theorem test_fmuls_V50 :
    goesTo (start ref16 [.reg 16 0x80, .reg 17 0x80, .code 0x0 0x0381])
      [.reg 1 0x80, .sreg 0x00, .pc 0x0001] := by decide
theorem test_fmulsu_V52 :
    goesTo (start ref16 [.reg 16 0x80, .reg 17 0x80, .code 0x0 0x0389])
      [.reg 1 0x80, .sreg 0x01, .pc 0x0001] := by decide
theorem test_rjmp_V56 : goesTo (start ref16 [.pc 0x0010, .code 0x10 0xC800]) [.sreg 0x00, .pc 0xF811] := by decide
theorem test_ijmp_V58 :
    goesTo (start ref16 [.reg 30 0x34, .reg 31 0x12, .code 0x0 0x9409]) [.sreg 0x00, .pc 0x1234] := by decide
theorem test_jmp_V60 :
    goesTo (start ref22 [.code 0x0 0x940D, .code 0x1 0x2345]) [.sreg 0x00, .pc 0x12345] := by decide
theorem test_eijmp_V61 :
    goesTo (start ref22 [.reg 30 0x10, .reg 31 0x00, .eind 0x01, .code 0x0 0x9419])
      [.sreg 0x00, .pc 0x10010] := by decide
theorem test_rcall_V62 :
    goesTo (start ref16 [.pc 0x0020, .code 0x20 0xD005])
      [.sreg 0x00, .pc 0x0026, .sp 0x08FD, .data 0x08FE 0x00, .data 0x08FF 0x21] := by decide
theorem test_icall_V63 :
    goesTo (start ref16 [.pc 0x0030, .reg 30 0x00, .reg 31 0x02, .code 0x30 0x9509])
      [.sreg 0x00, .pc 0x0200, .sp 0x08FD, .data 0x08FE 0x00, .data 0x08FF 0x31] := by decide
theorem test_eicall_V64 :
    goesTo (start ref22 [.pc 0x0040, .reg 30 0x00, .reg 31 0x00, .eind 0x01, .code 0x40 0x9519])
      [.sreg 0x00, .pc 0x10000, .sp 0x21FC, .data 0x21FD 0x00, .data 0x21FE 0x00, .data 0x21FF 0x41] := by decide
theorem test_call_V66 :
    goesTo (start ref22 [.pc 0x12000, .code 0x12000 0x940E, .code 0x12001 0x0200])
      [.sreg 0x00, .pc 0x0200, .sp 0x21FC, .data 0x21FD 0x01, .data 0x21FE 0x20, .data 0x21FF 0x02] := by decide
theorem test_ret_V68 :
    goesTo (start ref22 [.sp 0x21FC, .data 0x21FD 0x01, .data 0x21FE 0x20, .data 0x21FF 0x02, .code 0x0 0x9508])
      [.sreg 0x00, .pc 0x12002, .sp 0x21FF] := by decide
theorem test_reti_V69 :
    goesTo (start ref16 [.sp 0x08FD, .data 0x08FE 0x01, .data 0x08FF 0x50, .code 0x0 0x9518])
      [.sreg 0x80, .pc 0x0150, .sp 0x08FF, .holdoff true] := by decide
theorem test_cpse_V71 :
    goesTo (start ref16 [.pc 0x0010, .reg 0 0x07, .reg 4 0x07, .code 0x0011 0x940C, .code 0x10 0x1040])
      [.sreg 0x00, .pc 0x0013] := by decide
theorem test_cp_V73 :
    goesTo (start ref16 [.reg 4 0x05, .reg 19 0x0A, .code 0x0 0x1643]) [.sreg 0x35, .pc 0x0001] := by decide
theorem test_cpc_V76 :
    goesTo (start ref16 [.reg 1 0x01, .reg 3 0x01, .sreg 0x01, .code 0x0 0x0431])
      [.sreg 0x35, .pc 0x0001] := by decide
theorem test_cpi_V78 : goesTo (start ref16 [.reg 19 0x7F, .code 0x0 0x3830]) [.sreg 0x0d, .pc 0x0001] := by decide
theorem test_sbrc_V79 :
    goesTo (start ref16 [.pc 0x0010, .reg 0 0x7F, .code 0x0011 0x0000, .code 0x10 0xFC07])
      [.sreg 0x00, .pc 0x0012] := by decide
theorem test_sbrs_V82 :
    goesTo (start ref16 [.pc 0x0010, .reg 0 0x80, .code 0x0011 0x9200, .code 0x10 0xFE07])
      [.sreg 0x00, .pc 0x0013] := by decide
theorem test_sbic_V84 :
    goesTo (start ref16 [.pc 0x0010, .input 0x00, .code 0x0011 0x0000, .code 0x10 0x99E1])
      [.sreg 0x00, .pc 0x0012, .taken, .told (.read (.io 0x1C) 0x00)] := by decide
theorem test_sbis_V86 :
    goesTo (start ref16 [.pc 0x0010, .input 0x00, .code 0x10 0x9B83])
      [.sreg 0x00, .pc 0x0011, .taken, .told (.read (.io 0x10) 0x00)] := by decide
theorem test_brbs_V91 :
    goesTo (start ref16 [.pc 0x0040, .sreg 0x01, .code 0x40 0xF1F8]) [.sreg 0x01, .pc 0x0080] := by decide
theorem test_brbc_V92 : goesTo (start ref16 [.pc 0x0040, .code 0x40 0xF600]) [.sreg 0x00, .pc 0x0001] := by decide
theorem test_mov_V113 :
    goesTo (start ref16 [.reg 0 0x5A, .code 0x0 0x2D00]) [.reg 16 0x5A, .sreg 0x00, .pc 0x0001] := by decide
theorem test_movw_V115 :
    goesTo (start ref16 [.reg 24 0x34, .reg 25 0x12, .code 0x0 0x01FC])
      [.reg 30 0x34, .reg 31 0x12, .sreg 0x00, .pc 0x0001] := by decide
theorem test_ldi_V116 : goesTo (start ref16 [.code 0x0 0xEA05]) [.reg 16 0xA5, .sreg 0x00, .pc 0x0001] := by decide
theorem test_lds_V118 :
    goesTo (start ref16 [.sreg 0x03, .code 0x0 0x9020, .code 0x1 0x005F])
      [.reg 2 0x03, .sreg 0x03, .pc 0x0002] := by decide
theorem test_ldX_V132 :
    goesTo (start ref16 [.reg 16 0xC3, .reg 26 0x10, .reg 27 0x00, .code 0x0 0x905C])
      [.reg 5 0xC3, .sreg 0x00, .pc 0x0001] := by decide
theorem test_ldXInc_V122 :
    goesTo (start ref16 [.reg 26 0xFF, .reg 27 0x01, .data 0x01FF 0x22, .code 0x0 0x900D])
      [.reg 0 0x22, .reg 26 0x00, .reg 27 0x02, .sreg 0x00, .pc 0x0001] := by decide
theorem test_ldXDec_V123 :
    goesTo (start ref16 [.reg 26 0x00, .reg 27 0x02, .data 0x01FF 0x33, .code 0x0 0x900E])
      [.reg 0 0x33, .reg 26 0xFF, .reg 27 0x01, .sreg 0x00, .pc 0x0001] := by decide
theorem test_ldY_V124 :
    goesTo (start ref16 [.reg 28 0x00, .reg 29 0x01, .data 0x0100 0x11, .code 0x0 0x8018])
      [.reg 1 0x11, .sreg 0x00, .pc 0x0001] := by decide
theorem test_ldYInc_V125 :
    goesTo (start ref16 [.reg 28 0x00, .reg 29 0x01, .data 0x0100 0x11, .code 0x0 0x9019])
      [.reg 1 0x11, .reg 28 0x01, .sreg 0x00, .pc 0x0001] := by decide
theorem test_ldYDec_V126 :
    goesTo (start ref16 [.reg 28 0x01, .reg 29 0x01, .data 0x0100 0x11, .code 0x0 0x901A])
      [.reg 1 0x11, .reg 28 0x00, .sreg 0x00, .pc 0x0001] := by decide
theorem test_lddY_V127 :
    goesTo (start ref16 [.reg 28 0x00, .reg 29 0x01, .data 0x0102 0x44, .code 0x0 0x804A])
      [.reg 4 0x44, .sreg 0x00, .pc 0x0001] := by decide
theorem test_ldZ_V128 :
    goesTo (start ref16 [.reg 30 0x00, .reg 31 0x01, .data 0x0100 0x11, .code 0x0 0x8020])
      [.reg 2 0x11, .sreg 0x00, .pc 0x0001] := by decide
theorem test_ldZInc_V129 :
    goesTo (start ref16 [.reg 30 0x00, .reg 31 0x01, .data 0x0100 0x11, .code 0x0 0x9021])
      [.reg 2 0x11, .reg 30 0x01, .sreg 0x00, .pc 0x0001] := by decide
theorem test_ldZDec_V130 :
    goesTo (start ref16 [.reg 30 0x01, .reg 31 0x01, .data 0x0100 0x11, .code 0x0 0x9022])
      [.reg 2 0x11, .reg 30 0x00, .sreg 0x00, .pc 0x0001] := by decide
theorem test_lddZ_V131 :
    goesTo (start ref16 [.reg 30 0x00, .reg 31 0x01, .data 0x013F 0x55, .code 0x0 0xAC47])
      [.reg 4 0x55, .sreg 0x00, .pc 0x0001] := by decide
theorem test_sts_V134 :
    goesTo (start ref16 [.reg 2 0xAB, .code 0x0 0x9220, .code 0x1 0x0100])
      [.sreg 0x00, .pc 0x0002, .data 0x0100 0xAB] := by decide
theorem test_stX_V146 :
    goesTo (start ref16 [.reg 0 0xAA, .reg 26 0x1A, .reg 27 0x00, .code 0x0 0x920C])
      [.reg 26 0xAA, .sreg 0x00, .pc 0x0001] := by decide
theorem test_stXInc_V136 :
    goesTo (start ref16 [.reg 0 0xAA, .reg 26 0xFF, .reg 27 0x01, .code 0x0 0x920D])
      [.reg 26 0x00, .reg 27 0x02, .sreg 0x00, .pc 0x0001, .data 0x01FF 0xAA] := by decide
theorem test_stXDec_V137 :
    goesTo (start ref16 [.reg 0 0xAA, .reg 26 0x00, .reg 27 0x02, .code 0x0 0x920E])
      [.reg 26 0xFF, .reg 27 0x01, .sreg 0x00, .pc 0x0001, .data 0x01FF 0xAA] := by decide
theorem test_stY_V138 :
    goesTo (start ref16 [.reg 1 0xBB, .reg 28 0x00, .reg 29 0x01, .code 0x0 0x8218])
      [.sreg 0x00, .pc 0x0001, .data 0x0100 0xBB] := by decide
theorem test_stYInc_V139 :
    goesTo (start ref16 [.reg 1 0xBB, .reg 28 0x00, .reg 29 0x01, .code 0x0 0x9219])
      [.reg 28 0x01, .sreg 0x00, .pc 0x0001, .data 0x0100 0xBB] := by decide
theorem test_stYDec_V140 :
    goesTo (start ref16 [.reg 1 0xBB, .reg 28 0x01, .reg 29 0x01, .code 0x0 0x921A])
      [.reg 28 0x00, .sreg 0x00, .pc 0x0001, .data 0x0100 0xBB] := by decide
theorem test_stdY_V141 :
    goesTo (start ref16 [.reg 4 0xCC, .reg 28 0x00, .reg 29 0x01, .code 0x0 0x824A])
      [.sreg 0x00, .pc 0x0001, .data 0x0102 0xCC] := by decide
theorem test_stZ_V142 :
    goesTo (start ref16 [.reg 2 0xDD, .reg 30 0x00, .reg 31 0x01, .code 0x0 0x8220])
      [.sreg 0x00, .pc 0x0001, .data 0x0100 0xDD] := by decide
theorem test_stZInc_V143 :
    goesTo (start ref16 [.reg 2 0xDD, .reg 30 0x00, .reg 31 0x01, .code 0x0 0x9221])
      [.reg 30 0x01, .sreg 0x00, .pc 0x0001, .data 0x0100 0xDD] := by decide
theorem test_stZDec_V144 :
    goesTo (start ref16 [.reg 2 0xDD, .reg 30 0x01, .reg 31 0x01, .code 0x0 0x9222])
      [.reg 30 0x00, .sreg 0x00, .pc 0x0001, .data 0x0100 0xDD] := by decide
theorem test_stdZ_V145 :
    goesTo (start ref16 [.reg 4 0xEE, .reg 30 0x00, .reg 31 0x01, .code 0x0 0xAE47])
      [.sreg 0x00, .pc 0x0001, .data 0x013F 0xEE] := by decide
theorem test_lpmR0_V149 :
    goesTo (start ref16 [.reg 30 0x01, .reg 31 0x02, .code 0x0100 0xBBAA, .code 0x0 0x95C8])
      [.reg 0 0xBB, .sreg 0x00, .pc 0x0001] := by decide
theorem test_lpmZ_V150 :
    goesTo (start ref16 [.reg 30 0x00, .reg 31 0x02, .code 0x0100 0xBBAA, .code 0x0 0x9104])
      [.reg 16 0xAA, .sreg 0x00, .pc 0x0001] := by decide
theorem test_lpmZInc_V151 :
    goesTo (start ref22 [.reg 30 0xFF, .reg 31 0xFF, .code 0x7FFF 0xBBAA, .code 0x0 0x9105])
      [.reg 16 0xBB, .reg 30 0x00, .reg 31 0x00, .sreg 0x00, .pc 0x0001] := by decide
theorem test_elpmR0_V153 :
    goesTo (start ref22 [.reg 30 0x01, .reg 31 0x00, .rampz 0x01, .code 0x8000 0xBBAA, .code 0x0 0x95D8])
      [.reg 0 0xBB, .sreg 0x00, .pc 0x0001] := by decide +kernel
theorem test_elpmZ_V154 :
    goesTo (start ref22 [.reg 30 0x00, .reg 31 0x00, .rampz 0x01, .code 0x8000 0xBBAA, .code 0x0 0x9106])
      [.reg 16 0xAA, .sreg 0x00, .pc 0x0001] := by decide +kernel
theorem test_elpmZInc_V155 :
    goesTo (start ref22 [.reg 30 0xFF, .reg 31 0xFF, .rampz 0x01, .code 0xFFFF 0xBBAA, .code 0x0 0x9107])
      [.reg 16 0xBB, .reg 30 0x00, .reg 31 0x00, .sreg 0x00, .pc 0x0001, .rampz 0x02] := by decide +kernel
theorem test_spm_V157 : refuses (start ref16 [.code 0x0 0x95E8]) (.spmNotModelled 0x0000) := by decide
theorem test_in_V159 :
    goesTo (start ref16 [.sreg 0x83, .code 0x0 0xB79F]) [.reg 25 0x83, .sreg 0x83, .pc 0x0001] := by decide
theorem test_out_V161 :
    goesTo (start ref16 [.reg 16 0x34, .code 0x0 0xBF0D]) [.sreg 0x00, .pc 0x0001, .sp 0x0834] := by decide
theorem test_push_V170 :
    goesTo (start ref16 [.reg 14 0x5A, .sp 0x0000, .code 0x0 0x92EF])
      [.reg 0 0x5A, .sreg 0x00, .pc 0x0001, .sp 0xFFFF] := by decide
theorem test_pop_V168 :
    goesTo (start ref16 [.sp 0x08FE, .data 0x08FF 0x77, .code 0x0 0x90DF])
      [.reg 13 0x77, .sreg 0x00, .pc 0x0001, .sp 0x08FF] := by decide
theorem test_lsl_V172 :
    goesTo (start ref16 [.reg 16 0x88, .code 0x0 0x0F00]) [.reg 16 0x10, .sreg 0x39, .pc 0x0001] := by decide
theorem test_lsr_V174 :
    goesTo (start ref16 [.reg 16 0x01, .code 0x0 0x9506]) [.reg 16 0x00, .sreg 0x1b, .pc 0x0001] := by decide
theorem test_rol_V177 :
    goesTo (start ref16 [.reg 16 0x48, .code 0x0 0x1F00]) [.reg 16 0x90, .sreg 0x2c, .pc 0x0001] := by decide
theorem test_ror_V178 :
    goesTo (start ref16 [.reg 16 0x01, .sreg 0x01, .code 0x0 0x9507])
      [.reg 16 0x80, .sreg 0x15, .pc 0x0001] := by decide
theorem test_asr_V180 :
    goesTo (start ref16 [.reg 16 0x81, .code 0x0 0x9505]) [.reg 16 0xC0, .sreg 0x15, .pc 0x0001] := by decide
theorem test_swap_V183 :
    goesTo (start ref16 [.reg 16 0xA5, .code 0x0 0x9502]) [.reg 16 0x5A, .sreg 0x00, .pc 0x0001] := by decide
theorem test_bset_V186 : goesTo (start ref16 [.code 0x0 0x9478]) [.sreg 0x80, .pc 0x0001, .holdoff true] := by decide
theorem test_bclr_V185 : goesTo (start ref16 [.sreg 0x41, .code 0x0 0x94E8]) [.sreg 0x01, .pc 0x0001] := by decide
theorem test_sbi_V187 :
    goesTo (start ref16 [.input 0x01, .code 0x0 0x9AC3])
      [.sreg 0x00, .pc 0x0001, .taken, .told (.read (.io 0x18) 0x01), .told (.write (.io 0x18) 0x09)] := by decide
theorem test_cbi_V188 :
    goesTo (start ref16 [.input 0x09, .code 0x0 0x98C0])
      [.sreg 0x00, .pc 0x0001, .taken, .told (.read (.io 0x18) 0x09), .told (.write (.io 0x18) 0x08)] := by decide
theorem test_bst_V190 :
    goesTo (start ref16 [.reg 1 0xFB, .sreg 0x40, .code 0x0 0xFA12]) [.sreg 0x00, .pc 0x0001] := by decide
theorem test_bld_V191 :
    goesTo (start ref16 [.reg 0 0x00, .sreg 0x40, .code 0x0 0xF804])
      [.reg 0 0x10, .sreg 0x40, .pc 0x0001] := by decide
theorem test_brk_V210 : faults (start ref16 [.pc 0x0020, .code 0x20 0x9598]) (.breakReached 0x0020) := by decide
theorem test_nop_V209 : goesTo (start ref16 [.sreg 0x41, .code 0x0 0x0000]) [.sreg 0x41, .pc 0x0001] := by decide
theorem test_sleep_V211 :
    goesTo (start ref16 [.code 0x0 0x9588]) [.sreg 0x00, .pc 0x0001, .sleeping true] := by decide
theorem test_wdr_V212 :
    goesTo (start ref16 [.code 0x0 0x95A8]) [.sreg 0x00, .pc 0x0001, .told .watchdogReset] := by decide

theorem test_spmZInc : refuses (start { ref16 with has := allPresent } [.code 0 0x95F8]) (.spmNotModelled 0) := by
  decide
theorem test_des_keeps_rest : (match exec (.des 5) (start ref16 [.reg 16 0xA5, .sreg 0x20]) with
    | .next t => t.reg 16 = 0xA5 && t.sreg = 0x20 && t.pc = 1 | _ => false) = true := by decide

/-- V93 to V110: word, SREG, pc before, pc after. -/
theorem test_named_branches : ([
  (0xF019, 0x02, 0x10, 0x14), (0xF7F1, 0x00, 0x11, 0x10), (0xF020, 0x01, 0x00, 0x05), (0xF420, 0x00, 0x00, 0x05),
  (0xF408, 0x00, 0x01, 0x03), (0xF008, 0x01, 0x01, 0x03), (0xF00A, 0x04, 0x10, 0x12), (0xF40A, 0x00, 0x10, 0x12),
  (0xF40C, 0x00, 0x01, 0x03), (0xF00C, 0x10, 0x01, 0x03), (0xF00D, 0x20, 0x10, 0x12), (0xF40D, 0x00, 0x10, 0x12),
  (0xF00E, 0x40, 0x10, 0x12), (0xF40E, 0x00, 0x10, 0x12), (0xF00B, 0x08, 0x10, 0x12), (0xF40B, 0x00, 0x10, 0x12),
  (0xF00F, 0x80, 0x10, 0x12), (0xF40F, 0x00, 0x10, 0x12)] :
    List (Word × Byte × PAddr × PAddr)).all (fun (w, x, a, b) =>
      goesTo (start ref16 [.pc a, .sreg x, .code a.toNat w]) [.pc b]) = true := by decide

/-- V193 to V208: word, SREG before, SREG after; SEI also starts the hold-off (V199). -/
theorem test_flag_instructions : ([
  (0x9408, 0x00, 0x01), (0x9488, 0xFF, 0xFE), (0x9428, 0x00, 0x04), (0x94A8, 0xFF, 0xFB), (0x9418, 0x00, 0x02),
  (0x9498, 0xFF, 0xFD), (0x9478, 0x00, 0x80), (0x94F8, 0xFF, 0x7F), (0x9448, 0x00, 0x10), (0x94C8, 0xFF, 0xEF),
  (0x9438, 0x00, 0x08), (0x94B8, 0xFF, 0xF7), (0x9468, 0x00, 0x40), (0x94E8, 0xFF, 0xBF), (0x9458, 0x00, 0x20),
  (0x94D8, 0xFF, 0xDF)] :
    List (Word × Byte × Byte)).all (fun (w, x, y) =>
      goesTo (start ref16 [.sreg x, .code 0 w]) [.sreg y, .pc 1, .holdoff (w = 0x9478)]) = true := by decide

/-! ### Stops -/

theorem test_ld_overlap_V133 :
    refuses (start ref16 [.reg 26 0x00, .reg 27 0x01, .data 0x0100 0x01, .code 0x0 0x91AD])
      (.undefinedOperands 0x0000 0x91AD) := by decide
theorem test_st_overlap_V147 :
    refuses (start ref16 [.reg 28 0x01, .reg 29 0x01, .code 0x0 0x93CA])
      (.undefinedOperands 0x0000 0x93CA) := by decide
theorem test_lpm_overlap_V152 :
    refuses (start ref16 [.reg 30 0x00, .reg 31 0x02, .code 0x0100 0xBBAA, .code 0x0 0x91E5])
      (.undefinedOperands 0x0000 0x91E5) := by decide
theorem test_lds_unmapped_V120 :
    refuses (start ref16 [.code 0x0 0x9020, .code 0x1 0x0900])
      (.unmappedData 0x0900) := by decide
theorem test_st_unmapped_V148 :
    refuses (start ref16 [.reg 0 0x01, .reg 26 0x00, .reg 27 0x09, .code 0x0 0x920C])
      (.unmappedData 0x0900) := by decide
theorem test_pop_unmapped_V171 :
    refuses (start ref16 [.sp 0x08FF, .code 0x0 0x90DF])
      (.unmappedData 0x0900) := by decide

/-- V213 to V225, V227 to V230. -/
theorem test_unassigned : ([
  0x0001, 0x00FF, 0x9003, 0x9008, 0x900B, 0x9204, 0x9404, 0x940B, 0x9429, 0x9419, 0x9528, 0x95B8, 0xF808, 0xFA08,
  0xFC08, 0xFFFF] :
    List Word).all (fun w => refuses (start ref16 [.code 0 w]) (.unassignedOpcode 0 w)) = true := by decide

/-! ### Interrupts -/

/-- The device of the interrupt vectors. -/
def ref16Irq : Config := { ref16 with irqVectors := [1, 2], vectorStride := 2 }

theorem test_irq_lowest_I1 : goesTo (start ref16Irq [.pc 0x0123, .sreg 0x82, .poll [2, 1]])
    [.polled, .data 0x08FF 0x23, .data 0x08FE 0x01, .sp 0x08FD, .sreg 0x02, .pc 2, .pending [2]] := by decide
theorem test_irq_masked_I2 : goesTo (start ref16Irq [.pc 0x0123, .sreg 0x02, .poll [1], .code 0x0123 0x0000])
    [.polled, .pc 0x0124, .pending [1]] := by decide
theorem test_irq_holdoff_I4 : goesTo (start ref16Irq [.pc 0x11, .sreg 0x80, .holdoff true, .pending [1],
    .code 0x11 0x9553]) [.reg 21 0x01, .pc 0x12, .holdoff false] := by decide
theorem test_irq_reti_I6 : goesTo (start ref16Irq [.pc 0x15, .sp 0x08FD, .data 0x08FF 0x12, .pending [2],
    .code 0x15 0x9518]) [.pc 0x12, .sp 0x08FF, .sreg 0x80, .holdoff true] := by decide
theorem test_irq_wakes_I7 : goesTo (start ref16Irq [.pc 0x20, .sreg 0x80, .sleeping true, .poll [2]])
    [.polled, .data 0x08FF 0x20, .sp 0x08FD, .sreg 0x00, .pc 4, .sleeping false] := by decide
theorem test_irq_asleep_I8 : goesTo (start ref16Irq [.pc 0x20, .sleeping true, .poll [2]])
    [.polled, .pending [2]] := by decide

/-! ### The end of program memory -/

/-- A device whose program memory fills its address space. -/
def ref16Full : Config := { ref16 with flashEnd := 0xFFFF }

/-- A two-word instruction in the last word of such a memory: its second word is word 0 (R24, R63). -/
theorem test_second_word_wraps :
    goesTo (start ref16Full [.pc 0xFFFF, .code 0xFFFF 0x940C, .code 0 0x0010]) [.pc 0x0010] := by decide +kernel

/-! ### Extension registers -/

/-- `out 0x3B,r16` on REF22, whose 256K bytes of program memory need two bits of RAMPZ (R37). -/
theorem test_rampz_implements_two_bits : goesTo (start ref22 [.reg 16 0xFF, .code 0 0xBF0B]) [.rampz 0x03, .pc 1] := by
  decide

/-! ### The interface -/

theorem test_table_word : decodeTableWord 16 0x0C12 = some (.add 1 2) := by decide
theorem test_table_two_words : decodeTableWord 32 0x940D2345 = some (.jmp 0x012345) := by decide
theorem test_fetch_word : goesTo (State.reset.withFetchWord 16 0xEA05) [.reg 16 0xA5, .pc 1] := by decide

/-! ### Witnesses: for every statement with hypotheses, a state and operands that meet them -/

/-- The vectors' start state. -/
def s16 (l : List Patch) : State := start ref16 l

/-- A device with every extension register and 128K bytes of data space. -/
def bigDevice : Config := { ref22 with hasRampd := true, hasRampx := true, hasRampy := true, ramEnd := 0x1FFFF }

/-- REF22 with interrupt vectors. -/
def ref22Irq : Config := { ref22 with irqVectors := [1, 2], vectorStride := 2 }

/-- Something stands `j` addresses above a stack pointer. -/
def mappedAt (c : Config) (sp : Nat) (j : Nat) : Prop := (start c []).mapped (spAt c (sp + j)).toNat

theorem wit_DecodeEncode : (Instr.adiw 30 63).wf = true ∧ (Instr.jmp 0x3FFFFF).wf = true := by decide
theorem wit_EncodeDecode : decodeWords 0x95FD 0xFFFF = some (.jmp 0x3FFFFF) := by decide
theorem wit_TwoWordInstructions : decodeWords 0x9000 0x0100 = some (.lds 0 0x0100) := by decide
theorem wit_RegisterPair : (0 : Reg).val % 2 = 0 ∧ (30 : Reg).val % 2 = 0 := by decide
theorem wit_WordAddSubtract : topPair 24 = true ∧ topPair 30 = true := by decide

theorem wit_SixteenBitCompare : ∃ t u, exec (.cp 0 2) (s16 [.reg 1 1]) = .next t ∧ exec (.cpc 1 3) t = .next u :=
  ⟨_, _, rfl, rfl⟩
/-- Equal, unsigned and signed lower, and the two apart. -/
theorem wit_BranchesAfterCompare : (∃ t, exec (.cp 0 2) (s16 [.reg 0 7, .reg 2 7]) = .next t) ∧
    (∃ t, exec (.cp 0 2) (s16 [.reg 0 1, .reg 2 2]) = .next t) ∧
    ∃ t, exec (.cp 0 2) (s16 [.reg 0 0x80, .reg 2 0x7F]) = .next t := ⟨⟨_, rfl⟩, ⟨_, rfl⟩, ⟨_, rfl⟩⟩

theorem wit_SkipResult_not : let s := s16 [.reg 0 1, .input 0x00]
    ¬s.reg 0 = s.reg 1 ∧ ¬(s.reg 0).toNat / 2 ^ 0 % 2 = 0 ∧ ¬(s.ioRead 0x10).1.toNat / 2 ^ 3 % 2 = 1 := by decide
/-- The last word of program memory may be skipped, and there is none after it. -/
theorem wit_SkipResult_taken : let s := s16 [.pc 0x3FFE, .input 0x08]
    s.reg 0 = s.reg 1 ∧ (s.reg 0).toNat / 2 ^ 7 % 2 = 0 ∧ (s.ioRead 0x10).1.toNat / 2 ^ 3 % 2 = 1 ∧
      (s.nextPc 1).toNat ≤ s.cfg.flashEnd := by decide +kernel
theorem wit_SkipResult_outside : let s := s16 [.pc 0x3FFF]
    s.reg 0 = s.reg 1 ∧ s.cfg.flashEnd < (s.nextPc 1).toNat := by decide +kernel

/-- The stack at its highest place and at its lowest, for both sizes of return address. -/
theorem wit_CallsPushReturnAddress :
    (s16 []).roomBelow (retBytes ref16) ∧ (s16 [.sp 0x0101]).roomBelow (retBytes ref16) ∧
    (start ref22 []).roomBelow (retBytes ref22) ∧ (start ref22 [.sp 0x0202]).roomBelow (retBytes ref22) ∧
    Memory.wf sramBlank (s16 [.data 0x0100 1]).sram := by
  refine ⟨?_, ?_, ?_, ?_, ?_⟩ <;> decide +kernel
theorem wit_CallsOnAnyStack_next : ∃ t, (s16 [.sp 0x0020]).pushRet ((s16 []).nextPc 1) = .next t := ⟨_, rfl⟩
theorem wit_CallsOnAnyStack_refused :
    (s16 [.sp 0x0900]).pushRet ((s16 []).nextPc 1) = .refused (.unmappedData 0x0900) := rfl
/-- A pop from R31 and I/O location 0, and, from SP = 0xFFFF, from R0 on. -/
theorem wit_ReturnsPopAddress_mapped :
    retBytes ref16 = 2 ∧ mappedAt ref16 0x001E 1 ∧ mappedAt ref16 0x001E 2 ∧ (spAt ref16 (0xFFFF + 1)).toNat = 0 ∧
    retBytes ref22 = 3 ∧ mappedAt ref22 0xFFFF 1 ∧ mappedAt ref22 0xFFFF 2 ∧ mappedAt ref22 0xFFFF 3 := by
  unfold mappedAt State.mapped; decide +kernel
/-- The first, the second and the third pop above RAMEND. -/
theorem wit_ReturnsPopAddress_stops :
    ¬mappedAt ref16 0x08FF 1 ∧ mappedAt ref16 0x08FE 1 ∧ ¬mappedAt ref16 0x08FE 2 ∧
    mappedAt ref22 0x21FD 1 ∧ mappedAt ref22 0x21FD 2 ∧ ¬mappedAt ref22 0x21FD 3 := by
  unfold mappedAt State.mapped; decide +kernel
theorem wit_ReturnsPopAddress_sram :
    (s16 [.sp 0x08FD]).bytesAbove (retBytes ref16) ∧ (s16 [.sp 0x00FF]).bytesAbove (retBytes ref16) ∧
    (start ref22 [.sp 0x21FC]).bytesAbove (retBytes ref22) := by
  refine ⟨?_, ?_, ?_⟩ <;> decide +kernel
theorem wit_ReturnUndoesCall :
    (s16 []).roomBelow (retBytes ref16) ∧ Memory.wf sramBlank (s16 []).sram := by decide +kernel
theorem wit_PushPopResult : (s16 []).mapped 0x08FF ∧ (s16 []).mapped 0x0000 ∧ ¬(s16 []).mapped 0x0900 ∧
    (spAt ref16 (0xFFFF + 1)).toNat = 0 ∧ (spAt ref16 (0x08FF + 1)).toNat = 0x0900 := by
  unfold State.mapped; decide +kernel
/-- PUSH with SP at the location of SPL and of SPH: SP is lowered from what the write left in it (log 19). -/
theorem wit_PushPopResult_sp :
    (s16 [.sp 0x005D]).mapped 0x005D ∧ (s16 [.sp 0x005E]).mapped 0x005E ∧
    goesTo (s16 [.sp 0x005D, .reg 5 0x34, .code 0 0x925F]) [.sp 0x0033, .pc 1] = true ∧
    goesTo (s16 [.sp 0x005E, .reg 5 0x04, .code 0 0x925F]) [.sp 0x045D, .pc 1] = true := by
  unfold State.mapped; decide +kernel
theorem wit_PopUndoesPush : (s16 []).roomBelow 1 ∧ (s16 [.sp 0x0100]).roomBelow 1 ∧
    Memory.wf sramBlank (s16 []).sram := by decide +kernel

theorem wit_PointerAddresses : (s16 []).cfg.hasRampx = false ∧ (start bigDevice []).cfg.hasRampx = true := by decide
/-- The first and the last address of SRAM, an I/O location, a register, and the address above RAMEND. -/
theorem wit_LoadResult_StoreResult :
    let s := s16 [.reg 30 0xC1, .reg 31 0x08]
    s.mapped (s.eaDirect 0x0100) ∧ s.mapped (s.eaDisp .z 62) ∧ s.mapped (s.eaDirect 0x005F) ∧
      s.mapped (s.ptrAddr .x) ∧ ¬s.mapped (s.eaDisp .z 63) := by unfold State.mapped; decide +kernel
/-- X just above RAMEND: the increment form stops, the decrement form does not; X at 0: the other way round. -/
theorem wit_LoadUpdateResult_StoreUpdateResult :
    let s := s16 [.reg 26 0x00, .reg 27 0x09]
    offPointer .x 25 = true ∧ offPointer .x 28 = true ∧ ¬s.mapped (s.ptrAddr .x) ∧ s.mapped (s.decAddr .x) ∧
      (s16 []).mapped ((s16 []).ptrAddr .x) ∧ ¬(s16 []).mapped ((s16 []).decAddr .x) := by
  unfold State.mapped; decide +kernel
theorem wit_OverlapRefused : (26 : Reg) = Ptr.low .x ∧ (31 : Reg) = highOf (Ptr.low .z) := by decide

theorem wit_StoreFrame_plain : let s := s16 [.reg 26 0x00, .reg 27 0x01]
    Memory.wf sramBlank s.sram ∧ placeOf s.cfg (s.ptrAddr .x) = .sram ∧ ∃ t, exec (.stX 5) s = .next t :=
  ⟨by decide +kernel, by decide +kernel, ⟨_, rfl⟩⟩
theorem wit_StoreFrame_update : let s := s16 [.reg 28 0x00, .reg 29 0x09]
    Memory.wf sramBlank s.sram ∧ placeOf s.cfg (s.decAddr .y) = .sram ∧ ∃ t, exec (.stYDec 5) s = .next t :=
  ⟨by decide +kernel, by decide +kernel, ⟨_, rfl⟩⟩
theorem wit_LoadFrame : (∃ t, exec (.lds 5 0x08FF) (s16 []) = .next t) ∧
    (∃ t, exec (.ldYDec 5) (s16 [.reg 28 0x00, .reg 29 0x09]) = .next t) ∧
    ∃ t, exec (.ldZInc 5) (s16 [.reg 31 0x01]) = .next t := ⟨⟨_, rfl⟩, ⟨_, rfl⟩, ⟨_, rfl⟩⟩
theorem wit_LpmResult : ((s16 [.reg 30 0xFF, .reg 31 0x7F]).ptr .z).toNat / 2 ≤ ref16.flashEnd ∧
    ref16.flashEnd < ((s16 [.reg 31 0x80]).ptr .z).toNat / 2 ∧ offPointer .z 29 = true := by decide +kernel
theorem wit_ElpmResult :
    (let s := start ref22 [.rampz 3, .reg 30 0xFF, .reg 31 0xFF]
     (s.rampz.toNat * 65536 + (s.ptr .z).toNat) / 2 ≤ s.cfg.flashEnd) ∧
    (let s := start ref22 [.rampz 4]
     s.cfg.flashEnd < (s.rampz.toNat * 65536 + (s.ptr .z).toNat) / 2) ∧ offPointer .z 0 = true := by decide +kernel

theorem wit_InOutResult : cpuRegAt ref16 0 = none ∧ cpuRegAt ref16 0x3C = none ∧
    (s16 [.input 0xC3]).ioInputs = [0xC3] := by decide
theorem wit_SregAndSpAsIo : (s16 []).cfg.io = defaultIo ∧ (s16 []).cfg.spBits = 16 := by decide
/-- Every register present; RAMPZ and EIND alone; none. -/
theorem wit_ExtensionRegistersAsIo :
    (bigDevice.io = defaultIo ∧ bigDevice.hasRampd = true ∧ bigDevice.hasRampx = true ∧ bigDevice.hasRampy = true ∧
      bigDevice.hasRampz = true ∧ bigDevice.hasEind = true) ∧
    (ref22.io = defaultIo ∧ ref22.hasRampz = true ∧ ref22.hasEind = true ∧ ref22.hasRampx = false) ∧
    (ref16.io = defaultIo ∧ ref16.hasRampd = false ∧ ref16.hasRampx = false ∧ ref16.hasRampy = false ∧
      ref16.hasRampz = false ∧ ref16.hasEind = false) := by decide
theorem wit_IoBitResult : (s16 []).cfg.ioBitReadModifyWrite = true ∧
    (start { ref16 with ioBitReadModifyWrite := false } []).cfg.ioBitReadModifyWrite = false := by decide
theorem wit_McuControlResult : (s16 []).cfg.breakEndsRun = true ∧ State.reset.cfg.breakEndsRun = false := by decide

/-- A two-word instruction in the last two words of program memory. -/
theorem wit_StepRunsDecoded : let s := s16 [.pc 0x3FFE, .code 0x3FFE 0x940C, .code 0x3FFF 0x0010]
    let a := 2 * s.pc.toNat
    let b := 2 * (s.nextPc 1).toNat
    s.sleeping = false ∧ s.tick.resetRequest = false ∧ s.pollEnv.accepted = none ∧
    decode [s.flashAt a, s.flashAt (a + 1), s.flashAt b, s.flashAt (b + 1)] = .ok (.jmp 0x10, []) ∧
    isPresent s.cfg (.jmp 0x10) = true ∧ s.pc.toNat ≤ s.cfg.flashEnd ∧ (s.nextPc 1).toNat ≤ s.cfg.flashEnd := by
  decide +kernel
/-- In the last word of a full program memory, with word 0 as the second word. -/
theorem wit_StepRunsDecoded_last : let s := start ref16Full [.pc 0xFFFF, .code 0xFFFF 0x940C, .code 0 0x0010]
    let a := 2 * s.pc.toNat
    let b := 2 * (s.nextPc 1).toNat
    s.sleeping = false ∧ s.tick.resetRequest = false ∧ s.pollEnv.accepted = none ∧ b = 0 ∧
    decode [s.flashAt a, s.flashAt (a + 1), s.flashAt b, s.flashAt (b + 1)] = .ok (.jmp 0x10, []) ∧
    isPresent s.cfg (.jmp 0x10) = true ∧ s.pc.toNat ≤ s.cfg.flashEnd ∧ (s.nextPc 1).toNat ≤ s.cfg.flashEnd := by
  decide +kernel
/-- A one-word instruction in the last word of program memory, with none after it. -/
theorem wit_StepRunsDecoded_one : let s := s16 [.pc 0x3FFF, .code 0x3FFF 0x0000]
    let a := 2 * s.pc.toNat
    let b := 2 * (s.nextPc 1).toNat
    s.sleeping = false ∧ s.tick.resetRequest = false ∧ s.pollEnv.accepted = none ∧
    decode [s.flashAt a, s.flashAt (a + 1), s.flashAt b, s.flashAt (b + 1)] = .ok (.nop, [0xFF, 0xFF]) ∧
    isPresent s.cfg .nop = true ∧ s.pc.toNat ≤ s.cfg.flashEnd ∧ Instr.nop.words = 1 := by decide +kernel
/-- The machine is at a boundary that reaches the fetch. -/
abbrev fetches (s : State) : Prop :=
  s.sleeping = false ∧ s.tick.resetRequest = false ∧ s.pollEnv.accepted = none

theorem wit_FetchStops_above : fetches (s16 [.pc 0x4000]) ∧ ref16.flashEnd < (s16 [.pc 0x4000]).pc.toNat := by
  decide +kernel
theorem wit_FetchStops_unassigned : let s := s16 [.code 0 0x0001]
    fetches s ∧ s.flashAt 1 ++ s.flashAt 0 = (0x0001 : Word) ∧ decodeWords 0x0001 0 = none := by decide +kernel
theorem wit_FetchStops_absent : let s := s16 [.code 0 0x9419]
    fetches s ∧ s.flashAt 1 ++ s.flashAt 0 = (0x9419 : Word) ∧ decodeWords 0x9419 0 = some .eijmp ∧
      isPresent s.cfg .eijmp = false := by decide +kernel
theorem wit_FetchStops_second : let s := s16 [.pc 0x3FFF, .code 0x3FFF 0x940C]
    fetches s ∧ s.flashAt 0x7FFF ++ s.flashAt 0x7FFE = (0x940C : Word) ∧ decodeWords 0x940C 0 = some (.jmp 0) ∧
      isPresent s.cfg (.jmp 0) = true ∧ s.pc.toNat ≤ s.cfg.flashEnd ∧ s.cfg.flashEnd < (s.nextPc 1).toNat := by decide +kernel

theorem wit_LowestRequestAccepted : (start ref16Irq [.sreg 0x80, .poll [2, 1]]).pollEnv.accepted = some 1 ∧
    (start ref16Irq [.sreg 0x80, .holdoff true, .poll [2, 1]]).pollEnv.accepted = none := by decide +kernel
theorem wit_InterruptEntry : let s := start ref16Irq [.pc 0xFFFF, .sreg 0x82, .poll [2, 1]]
    s.tick.resetRequest = false ∧ s.pollEnv.accepted = some 1 ∧ s.roomBelow (retBytes s.cfg) ∧
      Memory.wf sramBlank s.sram ∧ s.pc.toNat < 2 ^ s.cfg.pcBits := by decide +kernel
/-- A stack whose address lies in I/O location 0 and R31. -/
theorem wit_InterruptEntry_anyStack : let s := start ref16Irq [.sp 0x0020, .sreg 0x82, .poll [2, 1]]
    s.tick.resetRequest = false ∧ s.pollEnv.accepted = some 1 ∧
      ∃ t, { s with irqPending := [2], envTicks := [], sleeping := false }.pushRet s.pc = .next t :=
  ⟨rfl, rfl, _, rfl⟩
theorem wit_InterruptEntryOffMap : let s := start ref16Irq [.sp 0x0900, .sreg 0x80, .pending [2]]
    s.tick.resetRequest = false ∧ s.pollEnv.accepted = some 2 ∧ ¬s.mapped s.sp.toNat := by
  unfold State.mapped; decide +kernel
/-- The second push, and the third, at address 0xFFFF. -/
theorem wit_InterruptEntryOffMap_second : let s := start ref16Irq [.sp 0x0000, .sreg 0x80, .pending [2]]
    s.tick.resetRequest = false ∧ s.pollEnv.accepted = some 2 ∧
      ∃ t, { s with irqPending := [], sleeping := false }.push8 0 = .next t ∧ ¬s.mapped t.sp.toNat :=
  ⟨rfl, rfl, _, rfl, by unfold State.mapped; decide⟩
theorem wit_InterruptEntryOffMap_third : let s := start ref22Irq [.sp 0x0001, .sreg 0x80, .pending [2]]
    s.tick.resetRequest = false ∧ s.pollEnv.accepted = some 2 ∧ retBytes s.cfg = 3 ∧
      ∃ t u, { s with irqPending := [], sleeping := false }.push8 0 = .next t ∧ t.push8 0 = .next u ∧
        ¬s.mapped u.sp.toNat :=
  ⟨rfl, rfl, rfl, _, _, rfl, rfl, by unfold State.mapped; decide⟩
theorem wit_RaisingIHoldsOff : ∃ t, exec .sei (s16 []) = .next t ∧ (s16 []).flag .i = false ∧ t.flag .i = true :=
  ⟨_, rfl, rfl, rfl⟩
theorem wit_HoldOffDelaysInterrupt : let s := start ref16Irq [.holdoff true, .sreg 0x80, .pending [1]]
    s.irqHoldoff = true ∧ s.tick.resetRequest = false ∧ s.sleeping = false := by decide
theorem wit_SleepingCore_ends :
    (let s := s16 [.sleeping true]
     s.sleeping = true ∧ s.envTicks = [] ∧ s.flag .i = false) ∧
    (let s := s16 [.sleeping true, .sreg 0x80]
     s.sleeping = true ∧ s.envTicks = [] ∧ s.irqPending = []) := by decide
/-- Asleep with more to come; and asleep with a request that only the hold-off keeps back. -/
theorem wit_SleepingCore_waits :
    (let s := start ref16Irq [.sleeping true, .poll [2]]
     s.sleeping = true ∧ ¬s.envTicks = [] ∧ s.tick.resetRequest = false ∧ s.pollEnv.accepted = none) ∧
    (let s := start ref16Irq [.sleeping true, .sreg 0x80, .pending [1], .holdoff true]
     s.sleeping = true ∧ ¬(s.flag .i = false ∨ s.irqPending = []) ∧ s.tick.resetRequest = false ∧
       s.pollEnv.accepted = none) := by decide +kernel
theorem wit_ResetRequest :
    { s16 [] with envTicks := [{ poll := [], withdrawn := [], resetRequest := true }] }.tick.resetRequest = true := rfl

/-- A small running state that satisfies the invariant: a register loaded, a byte of SRAM, a NOP at pc. -/
def nopState : State := start ref16Irq [.reg 5 0xA5, .data 0x08FF 1, .code 0 0x0000, .pending [2]]

theorem nopState_inv : nopState.Inv where
  sound := by decide +kernel
  pcWidth := by decide +kernel
  spWidth := by decide +kernel
  sramForm := by decide +kernel
  sramRange := by decide +kernel
  flashForm := by decide +kernel
  rampd := by decide +kernel
  rampx := by decide +kernel
  rampy := by decide +kernel
  rampz := by decide +kernel
  eind := by decide +kernel
  pending := by decide +kernel
  vectors := by decide +kernel

theorem wit_StepKeepsInv : nopState.Inv ∧ goesTo nopState [.pc 1] = true := ⟨nopState_inv, by decide⟩
theorem wit_ProgramMemoryConstant : goesTo nopState [.pc 1] = true := wit_StepKeepsInv.2
theorem wit_OnlyStoresWriteSram : writesData .nop = false ∧ ∃ t, exec .nop nopState = .next t :=
  ⟨rfl, ⟨_, rfl⟩⟩

end Sys2Proof.Tests
end

section
/-! The machine right after reset satisfies the invariant (R5, R37, R47). -/

namespace Sys2Proof.Machine

/-- REF22 with DES and SPM Z+ added is still a device that R5 allows. -/
theorem resetDevice_sound : Config.sound resetDevice := by decide

/-- R37: a zero extension register reads as it must whether or not the device has it, whatever bits it implements. -/
theorem extensionOk_zero (present : Bool) (bits : Byte) : extensionOk present bits 0 :=
  ⟨BitVec.zero_and, fun _ => rfl⟩

/-- SP_RESET of the reset device fits its SP_BITS (R35, log 3). -/
theorem resetDevice_spReset_lt : resetDevice.spReset.toNat < 2 ^ resetDevice.spBits := by decide

/-- Settles O57, field by field: the device by `resetDevice_sound`, both memories by `reset_memory_wf`, each extension
register as zero, and the lists of SRAM cells and pending requests as empty. -/
theorem resetInv : Obligations.ResetInv where
  sound := resetDevice_sound
  pcWidth := Nat.two_pow_pos resetDevice.pcBits
  spWidth := resetDevice_spReset_lt
  sramForm := reset_memory_wf.1
  sramRange := List.forall_mem_nil _
  flashForm := reset_memory_wf.2
  rampd := extensionOk_zero _ _
  rampx := extensionOk_zero _ _
  rampy := extensionOk_zero _ _
  rampz := extensionOk_zero _ _
  eind := fun _ => rfl
  pending := List.Pairwise.nil
  vectors := List.forall_mem_nil _

end Sys2Proof.Machine
end

section
/-! What a step that goes on can have done (R325): the cases that every invariant of the machine is proved by. -/

namespace Sys2Proof.Machine

/-- `t` comes after `s` by one of the ways R325 gives a step, each after the environment's inputs. -/
inductive StepsTo (s : State) : State → Prop where
  /-- the environment asked for a reset (R350) -/
  | reset : StepsTo s s.pollEnv.resetEvent
  /-- a request was accepted (R327) -/
  | entry {t : State} (n : Nat) (entered : s.pollEnv.interruptEntry n = .next t) : StepsTo s t
  /-- the core sleeps on (R312) -/
  | asleep : StepsTo s { s.pollEnv with irqHoldoff := false }
  /-- an instruction that the device has ran -/
  | ran {t : State} (i : Instr) (present : isPresent s.cfg i = true)
      (done : exec i { s.pollEnv with irqHoldoff := false } = .next t) : StepsTo s t

end Sys2Proof.Machine
end

section
/-! What an operation answers, where it answers: a postcondition that holds of every answer and asks nothing of a
stop. -/

namespace Sys2Proof.Machine

/-- Every answer of the operation satisfies `P`; a stop satisfies it vacuously, since it leaves no state (R321). -/
def Res.Gives {α : Type} (x : Res α) (P : α → Prop) : Prop := ∀ a, x = .next a → P a

theorem Res.Gives.next {α : Type} {P : α → Prop} {a : α} (h : P a) : Res.Gives (.next a) P := by
  intro b e
  cases e
  exact h

theorem Res.Gives.fault {α : Type} {P : α → Prop} (r : Fault) : Res.Gives (.fault r) P := by
  intro b e
  cases e

theorem Res.Gives.refused {α : Type} {P : α → Prop} (r : Refusal) : Res.Gives (.refused r) P := by
  intro b e
  cases e

theorem Res.Gives.andThen {α β : Type} {P : α → Prop} {Q : β → Prop} {x : Res α} {f : α → Res β}
    (h : x.Gives P) (hf : ∀ a, P a → (f a).Gives Q) : (x.andThen f).Gives Q := by
  intro b e
  obtain ⟨a, ha, hb⟩ := Res.andThen_eq_next.mp e
  exact hf a (h a ha) b hb

theorem Res.Gives.ite {α : Type} {P : α → Prop} {p : Prop} [Decidable p] {x y : Res α}
    (hx : p → x.Gives P) (hy : ¬p → y.Gives P) : Res.Gives (if p then x else y) P := by
  split
  · exact hx ‹p›
  · exact hy ‹¬p›

end Sys2Proof.Machine
end

section
/-! The pending requests as a set (R46, R323): what the strictly rising list of a boundary's requests holds. -/

namespace Sys2Proof.Machine

theorem mem_insertIrq {m n : Nat} {l : List Nat} : m ∈ insertIrq n l ↔ m = n ∨ m ∈ l := by
  induction l with
  | nil => simp [insertIrq]
  | cons k rest ih =>
    simp only [insertIrq]
    split_ifs with below eq
    · simp
    · simp [eq]
    · simp only [List.mem_cons, ih]
      tauto

theorem insertIrq_rising {n : Nat} {l : List Nat} (h : l.Pairwise (· < ·)) : (insertIrq n l).Pairwise (· < ·) := by
  induction l with
  | nil => simp [insertIrq]
  | cons k rest ih =>
    obtain ⟨low, rise⟩ := List.pairwise_cons.mp h
    simp only [insertIrq]
    split_ifs with below eq
    · refine List.pairwise_cons.mpr ⟨fun m hm => ?_, h⟩
      rcases List.mem_cons.mp hm with rfl | hm
      · exact below
      · exact below.trans (low m hm)
    · exact h
    · refine List.pairwise_cons.mpr ⟨fun m hm => ?_, ih rise⟩
      rcases mem_insertIrq.mp hm with rfl | hm
      · omega
      · exact low m hm

theorem mem_irqSet {m : Nat} {l : List Nat} : m ∈ irqSet l ↔ m ∈ l := by
  induction l with
  | nil => simp [irqSet]
  | cons k rest ih => rw [irqSet, List.foldr_cons, mem_insertIrq, ← irqSet, ih, List.mem_cons]

theorem irqSet_rising (l : List Nat) : (irqSet l).Pairwise (· < ·) := by
  induction l with
  | nil => exact List.Pairwise.nil
  | cons k rest ih => exact insertIrq_rising ih

/-- R323, R325: what is pending after the environment's inputs. -/
theorem mem_pollEnv_irqPending {s : State} {n : Nat} : n ∈ s.pollEnv.irqPending ↔
    (n ∈ s.irqPending ∨ n ∈ s.tick.poll ∧ n ∈ s.cfg.irqVectors) ∧ n ∉ s.tick.withdrawn := by
  simp [State.pollEnv, mem_irqSet]

theorem pollEnv_irqPending_rising (s : State) : s.pollEnv.irqPending.Pairwise (· < ·) :=
  (irqSet_rising _).filter _

end Sys2Proof.Machine
end

section
/-! Each shared operation keeps the invariant of a running machine. -/

namespace Sys2Proof.Machine

variable {s : State}

/-! ### Updates of one field -/

/-- The invariant speaks of no general register, no flag, no hold-off or sleep, and nothing the environment keeps. -/
theorem State.Inv.outside (h : s.Inv) {regs : Vector Byte 32} {sreg : Byte} {irqHoldoff sleeping : Bool}
    {ioInputs : List Byte} {envDraws : Nat} {envTicks : List EnvTick} {envTrace : List EnvEvent} :
    State.Inv { s with regs, sreg, irqHoldoff, sleeping, ioInputs, envDraws, envTicks, envTrace } where
  sound := h.sound
  pcWidth := h.pcWidth
  spWidth := h.spWidth
  sramForm := h.sramForm
  sramRange := h.sramRange
  flashForm := h.flashForm
  rampd := h.rampd
  rampx := h.rampx
  rampy := h.rampy
  rampz := h.rampz
  eind := h.eind
  pending := h.pending
  vectors := h.vectors

/-- The requests may be any rising list of vectors the device has (R323). -/
theorem State.Inv.withPending (h : s.Inv) {l : List Nat} (rising : l.Pairwise (· < ·))
    (vectors : ∀ n ∈ l, n ∈ s.cfg.irqVectors) : State.Inv { s with irqPending := l } :=
  { h with pending := rising, vectors := vectors }

theorem State.Inv.setReg (h : s.Inv) (d : Reg) (v : Byte) : (s.setReg d v).Inv := h.outside

theorem State.Inv.setPair (h : s.Inv) (d : Reg) (v : Word) : (s.setPair d v).Inv := h.outside

theorem State.Inv.setFlag (h : s.Inv) (f : Flag) (b : Bool) : (s.setFlag f b).Inv := h.outside

theorem State.Inv.envWrite (h : s.Inv) (l : EnvLoc) (v : Byte) : (s.envWrite l v).Inv := h.outside

theorem State.Inv.jump (h : s.Inv) (n : Int) : (s.jump n).Inv :=
  { h with pcWidth := by rw [jump_pc, jump_cfg, wrapPc_eq]; exact pcAt_lt h.sound n }

theorem State.Inv.advance (h : s.Inv) (n : Nat) : (s.advance n).Inv := h.jump _

theorem State.Inv.jumpRel (h : s.Inv) (k : Int) : (s.jumpRel k).Inv := h.jump _

theorem State.Inv.setSp (h : s.Inv) (n : Int) : (s.setSp n).Inv :=
  { h with spWidth := by rw [setSp_sp, setSp_cfg, wrapSp_eq]; exact spAt_lt s.cfg n }

/-! ### The CPU's own I/O registers -/

/-- The device has the CPU register: an extension register as its HAS_ parameter says, every other always. -/
def CpuReg.isIn (c : Config) : CpuReg → Bool
  | .rampd => c.hasRampd
  | .rampx => c.hasRampx
  | .rampy => c.hasRampy
  | .rampz => c.hasRampz
  | .eind => c.hasEind
  | .spl => true
  | .sph => true
  | .sreg => true

/-- A location answers only registers that the device has (R40). -/
theorem cpuRegAt_isIn {c : Config} {a : Nat} {r : CpuReg} (h : cpuRegAt c a = some r) : r.isIn c = true := by
  unfold cpuRegAt at h
  split_ifs at h <;> cases h <;> simp_all [CpuReg.isIn]

/-- On a sound device with more than 64K of data space each pointer's RAMP register exists (R37, R220). -/
theorem ramp_isIn {c : Config} (h : Config.sound c) (big : c.hasRampx = true) (p : Ptr) :
    (Ptr.ramp p).isIn c = true := by
  obtain ⟨-, -, -, -, -, -, -, -, rampy, rampz, -⟩ := h
  cases p with
  | x => exact big
  | y => exact rampy.trans big
  | z => exact rampz big

/-- What is written to a register the device has keeps only implemented bits (R37). -/
theorem extensionOk_masked {present : Bool} (h : present = true) (bits v : Byte) :
    extensionOk present bits (v &&& bits) := by
  refine ⟨?_, fun absent => by simp [h] at absent⟩
  rw [BitVec.and_assoc, BitVec.and_not_self]
  exact BitVec.and_zero

theorem State.Inv.writeCpu (h : s.Inv) {r : CpuReg} (has : r.isIn s.cfg = true) (v : Byte) : (s.writeCpu r v).Inv := by
  cases r with
  | rampd => exact { h with rampd := extensionOk_masked has _ v }
  | rampx => exact { h with rampx := extensionOk_masked has _ v }
  | rampy => exact { h with rampy := extensionOk_masked has _ v }
  | rampz => exact { h with rampz := extensionOk_masked has _ v }
  | eind => exact { h with eind := fun absent => absurd (has.symm.trans absent) (by decide) }
  | spl => exact h.setSp _
  | sph => exact h.setSp _
  | sreg => exact h.outside

theorem State.Inv.setPtrAddr (h : s.Inv) (p : Ptr) (a : Nat) : (s.setPtrAddr p a).Inv := by
  unfold State.setPtrAddr
  split
  · exact (h.writeCpu (ramp_isIn h.sound ‹_› p) _).setPair _ _
  · exact h.setPair _ _

/-! ### I/O space and data space -/

theorem State.Inv.onlyEnvRead {t : State} (h : s.Inv) (only : OnlyEnvRead s t) : t.Inv := by
  rw [only]
  exact h.outside

theorem State.Inv.ioRead (h : s.Inv) (a : Nat) : (s.ioRead a).2.Inv := h.onlyEnvRead (ioRead_only s a)

theorem State.Inv.ioWrite (h : s.Inv) (a : Nat) (v : Byte) : (s.ioWrite a v).Inv := by
  unfold State.ioWrite
  split
  · exact h.writeCpu (cpuRegAt_isIn ‹_›) v
  · exact h.envWrite _ v

theorem State.Inv.ioBitWrite (h : s.Inv) (a : Nat) (b : BitVec 3) (x : Bool) : (s.ioBitWrite a b x).Inv := by
  unfold State.ioBitWrite
  split
  · exact (h.onlyEnvRead (envRead_only s _)).envWrite _ _
  · exact h.outside

/-- R71: an SRAM byte is written at an address of SRAM, and the memory stays in canonical form. -/
theorem State.Inv.putSram (h : s.Inv) {a : Nat} (place : placeOf s.cfg a = .sram) (v : Byte) :
    State.Inv { s with sram := memPut sramBlank s.sram a v } :=
  { h with
    sramForm := memPut_wf h.sramForm
    sramRange := fun c hc => by
      rcases mem_memPut hc with ⟨rfl, -⟩ | old
      · exact placeOf_sram_range place
      · exact h.sramRange c old }

theorem memRead_inv (h : s.Inv) (a : Nat) : (s.memRead a).Gives fun x => x.2.Inv :=
  fun _ e => h.onlyEnvRead (memRead_only e)

theorem memWrite_inv (h : s.Inv) (a : Nat) (v : Byte) : (s.memWrite a v).Gives State.Inv := by
  intro t e
  rcases memWrite_cases e with ⟨d, -, rfl⟩ | ⟨_, r, -, found, rfl⟩ | ⟨l, rfl⟩ | ⟨place, rfl⟩
  · exact h.setReg d v
  · exact h.writeCpu (cpuRegAt_isIn found) v
  · exact h.envWrite l v
  · exact h.putSram place v

/-! ### The stack -/

theorem push8_inv (h : s.Inv) (v : Byte) : (s.push8 v).Gives State.Inv :=
  (memWrite_inv h _ v).andThen fun _ ht => .next (ht.setSp _)

theorem pop8_inv (h : s.Inv) : s.pop8.Gives fun x => x.2.Inv := memRead_inv (h.setSp _) _

theorem pushRet_inv (h : s.Inv) (a : PAddr) : (s.pushRet a).Gives State.Inv :=
  (push8_inv h _).andThen fun _ h1 => (push8_inv h1 _).andThen fun _ h2 =>
    .ite (fun _ => push8_inv h2 _) (fun _ => .next h2)

theorem popRet_inv (h : s.Inv) : s.popRet.Gives fun x => x.2.Inv := by
  have high : s.popHigh.Gives fun x => x.2.Inv := .ite (fun _ => pop8_inv h) (fun _ => .next h)
  exact high.andThen fun _ h1 => (pop8_inv h1).andThen fun _ h2 => (pop8_inv h2).andThen fun _ h3 => .next h3

theorem callTo_inv (h : s.Inv) (words : Nat) (target : Int) : (s.callTo words target).Gives State.Inv :=
  (pushRet_inv h _).andThen fun _ ht => .next (ht.jump target)

theorem returnToPopped_inv (h : s.Inv) : s.returnToPopped.Gives State.Inv :=
  (popRet_inv h).andThen fun _ ht => .next (ht.jump _)

theorem interruptReturn_inv (h : s.Inv) : s.interruptReturn.Gives State.Inv :=
  (returnToPopped_inv h).andThen fun _ ht => .next ht.outside

/-! ### The ends of an instruction -/

theorem skip_inv (h : s.Inv) (cond : Bool) : (s.skip cond).Gives State.Inv := by
  unfold State.skip
  split
  · exact .next (h.advance _)
  · exact .ite (fun _ => .fault _) (fun _ => .next (h.advance 1))
  · exact .ite (fun _ => .refused _) (fun _ => .next (h.advance 1))

theorem branchIf_inv (h : s.Inv) (cond : Bool) (k : BitVec 7) : (s.branchIf cond k).Gives State.Inv := by
  unfold State.branchIf
  split
  · exact .next (h.jumpRel _)
  · exact .next (h.advance 1)

theorem compare_inv (h : s.Inv) (f : Alu) : (s.compare f).Gives State.Inv :=
  .next (State.Inv.advance h.outside 1)

theorem writeResult_inv (h : s.Inv) (d : Reg) (v sreg : Byte) : (s.writeResult d v sreg).Gives State.Inv :=
  .next (State.Inv.advance h.outside 1)

theorem writePair_inv (h : s.Inv) (d : Reg) (v : Word) (sreg : Byte) : (s.writePair d v sreg).Gives State.Inv :=
  .next (State.Inv.advance h.outside 1)

/-! ### Loads and stores -/

theorem loadFrom_inv (h : s.Inv) (d : Reg) (a words : Nat) : (s.loadFrom d a words).Gives State.Inv :=
  (memRead_inv h a).andThen fun _ ht => .next ((ht.setReg d _).advance words)

theorem storeTo_inv (h : s.Inv) (a : Nat) (v : Byte) (words : Nat) : (s.storeTo a v words).Gives State.Inv :=
  (memWrite_inv h a v).andThen fun _ ht => .next (ht.advance words)

theorem offPointerOr_gives {p : Ptr} {d : Reg} {i : Instr} {go : Res State} {P : State → Prop} (h : go.Gives P) :
    (s.offPointerOr p d i go).Gives P :=
  .ite (fun _ => h) (fun _ => .refused _)

theorem loadInc_inv (h : s.Inv) (p : Ptr) (d : Reg) : (s.loadInc p d).Gives State.Inv :=
  (memRead_inv h _).andThen fun _ ht => .next (((ht.setReg d _).setPtrAddr p _).advance 1)

theorem loadDec_inv (h : s.Inv) (p : Ptr) (d : Reg) : (s.loadDec p d).Gives State.Inv :=
  loadFrom_inv (h.setPtrAddr p _) d _ 1

theorem storeInc_inv (h : s.Inv) (p : Ptr) (r : Reg) : (s.storeInc p r).Gives State.Inv :=
  (memWrite_inv h _ _).andThen fun _ ht => .next ((ht.setPtrAddr p _).advance 1)

theorem storeDec_inv (h : s.Inv) (p : Ptr) (r : Reg) : (s.storeDec p r).Gives State.Inv :=
  storeTo_inv (h.setPtrAddr p _) _ _ 1

/-- A program byte has no effect on the state, so what is done with it decides. -/
theorem progByte_andThen_gives {b : Nat} {f : Byte → Res State} {P : State → Prop} (h : ∀ v, (f v).Gives P) :
    ((s.progByte b).andThen f).Gives P :=
  Res.Gives.andThen (P := fun _ => True) (fun _ _ => trivial) fun v _ => h v

theorem loadProgram_inv (h : s.Inv) (d : Reg) (b : Nat) : (s.loadProgram d b).Gives State.Inv :=
  progByte_andThen_gives fun v => .next ((h.setReg d v).advance 1)

/-! ### The boundary -/

theorem State.Inv.pollEnv (h : s.Inv) : s.pollEnv.Inv :=
  (State.Inv.withPending h (pollEnv_irqPending_rising s) fun n hn => by
    obtain ⟨old | ⟨-, raised⟩, -⟩ := mem_pollEnv_irqPending.mp hn
    · exact h.vectors n old
    · exact raised).outside

theorem interruptEntry_inv (h : s.Inv) (n : Nat) : (s.interruptEntry n).Gives State.Inv := by
  have acknowledged := h.withPending (h.pending.filter (· ≠ n)) fun m hm => h.vectors m (List.mem_of_mem_filter hm)
  exact (pushRet_inv acknowledged.outside _).andThen fun _ ht => .next ((ht.setFlag .i false).jump _)

theorem State.Inv.resetEvent (h : s.Inv) : s.resetEvent.Inv where
  sound := h.sound
  pcWidth := Nat.two_pow_pos s.cfg.pcBits
  spWidth := (h.setSp s.cfg.spReset.toNat).spWidth
  sramForm := h.sramForm
  sramRange := h.sramRange
  flashForm := h.flashForm
  rampd := extensionOk_zero _ _
  rampx := extensionOk_zero _ _
  rampy := extensionOk_zero _ _
  rampz := extensionOk_zero _ _
  eind := fun _ => rfl
  pending := List.Pairwise.nil
  vectors := List.forall_mem_nil _

end Sys2Proof.Machine
end

section
/-! The second word of an instruction (R90, R91): which first words take one, and that it decides neither the kind of
the instruction nor whether a device has it. -/

namespace Sys2Proof

/-- The mask of LDS and STS reads bits 15 to 10 and 3 to 0. -/
theorem and_loadStoreMask (w : Word) : w &&& 0xFC0F = 0x9000 ↔ fld w 10 6 = 36 ∧ fld w 0 4 = 0 := by
  have high : (w.toNat &&& 0xFC0F) / 2 ^ 10 = w.toNat / 2 ^ 10 % 2 ^ 6 := by
    rw [Nat.and_div_two_pow]
    exact Nat.and_two_pow_sub_one_eq_mod _ 6
  have low : (w.toNat &&& 0xFC0F) % 2 ^ 10 = w.toNat % 2 ^ 10 % 2 ^ 4 := by
    rw [Nat.and_mod_two_pow]
    exact Nat.and_two_pow_sub_one_eq_mod _ 4
  rw [← BitVec.toNat_inj, BitVec.toNat_and]
  change w.toNat &&& 0xFC0F = 0x9000 ↔ _
  simp only [fld]
  omega

/-- The mask of JMP and CALL reads bits 15 to 9 and 3 to 2. -/
theorem and_jumpCallMask (w : Word) : w &&& 0xFE0C = 0x940C ↔ fld w 9 7 = 74 ∧ fld w 2 2 = 3 := by
  have high : (w.toNat &&& 0xFE0C) / 2 ^ 9 = w.toNat / 2 ^ 9 % 2 ^ 7 := by
    rw [Nat.and_div_two_pow]
    exact Nat.and_two_pow_sub_one_eq_mod _ 7
  have middle : (w.toNat &&& 0xFE0C) / 2 ^ 2 % 2 ^ 7 = w.toNat / 2 ^ 2 % 2 ^ 7 % 2 ^ 2 := by
    rw [Nat.and_div_two_pow, Nat.and_mod_two_pow]
    exact Nat.and_two_pow_sub_one_eq_mod _ 2
  have low : (w.toNat &&& 0xFE0C) % 2 ^ 2 = 0 := by
    rw [Nat.and_mod_two_pow]
    exact Nat.and_zero _
  rw [← BitVec.toNat_inj, BitVec.toNat_and]
  change w.toNat &&& 0xFE0C = 0x940C ↔ _
  simp only [fld]
  omega

/-- R91 by fields: the load and store groups with low bits 0, and `1001 010x xxxx 11xx`. -/
theorem isTwoWord_iff (w : Word) : isTwoWord w = true ↔
    fld w 12 4 = 9 ∧ (fld w 9 3 ≤ 1 ∧ fld w 0 4 = 0 ∨ fld w 9 3 = 2 ∧ 12 ≤ fld w 0 4) := by
  simp only [isTwoWord, Bool.or_eq_true, decide_eq_true_eq, and_loadStoreMask, and_jumpCallMask, fld]
  omega

variable {w k : Word} {i : Instr}

theorem decode0_words (h : decode0 w = some i) : i.words = 1 := by
  unfold decode0 at h
  repeat' split at h
  all_goals cases h <;> rfl

theorem decode1_words (h : decode1 w = some i) : i.words = 1 := by
  unfold decode1 at h
  split at h
  all_goals cases h; rfl

theorem decode2_words (h : decode2 w = some i) : i.words = 1 := by
  unfold decode2 at h
  split at h
  all_goals cases h; rfl

theorem decodeDisp_words (h : decodeDisp w = some i) : i.words = 1 := by
  unfold decodeDisp at h
  split at h
  all_goals cases h; rfl

theorem decode15_words (h : decode15 w = some i) : i.words = 1 := by
  unfold decode15 at h
  repeat' split at h
  all_goals cases h <;> rfl

theorem decodeFixed8_words (h : decodeFixed8 w = some i) : i.words = 1 := by
  unfold decodeFixed8 at h
  split at h
  all_goals cases h <;> rfl

theorem decodeFixed9_words (h : decodeFixed9 w = some i) : i.words = 1 := by
  unfold decodeFixed9 at h
  split at h
  all_goals cases h <;> rfl

/-- In the load group LDS alone has two words. -/
theorem decodeLoad_words (h : decodeLoad w k = some i) : i.words = if fld w 0 4 = 0 then 2 else 1 := by
  unfold decodeLoad at h
  split at h
  all_goals cases h <;> simp_all [Instr.words]

/-- In the store group STS alone has two words. -/
theorem decodeStore_words (h : decodeStore w k = some i) : i.words = if fld w 0 4 = 0 then 2 else 1 := by
  unfold decodeStore at h
  split at h
  all_goals cases h <;> simp_all [Instr.words]

/-- In the group of one register JMP and CALL alone have two words. -/
theorem decodeOne_words (h : decodeOne w k = some i) : i.words = if 12 ≤ fld w 0 4 then 2 else 1 := by
  unfold decodeOne at h
  split at h
  case h_8 low =>
    rw [low, if_neg (by decide)]
    repeat' split at h
    · cases h; rfl
    · cases h; rfl
    · exact decodeFixed8_words h
  case h_9 low =>
    rw [low, if_neg (by decide)]
    exact decodeFixed9_words h
  case h_11 low =>
    rw [low, if_neg (by decide)]
    split at h
    all_goals cases h <;> rfl
  all_goals cases h <;> simp_all [Instr.words]

/-- Of the words `1001 ...` those of R91 have two words. -/
theorem decode9_words (h : decode9 w k = some i) :
    i.words = if fld w 9 3 ≤ 1 ∧ fld w 0 4 = 0 ∨ fld w 9 3 = 2 ∧ 12 ≤ fld w 0 4 then 2 else 1 := by
  unfold decode9 at h
  split at h
  case h_1 group => rw [decodeLoad_words h, group]; simp
  case h_2 group => rw [decodeStore_words h, group]; simp
  case h_3 group => rw [decodeOne_words h, group]; simp
  case h_7 not0 not1 not2 _ _ _ =>
    rw [if_neg]
    · cases h; rfl
    · rintro (⟨le, -⟩ | ⟨eq, -⟩)
      · exact (Nat.le_one_iff_eq_zero_or_eq_one.mp le).elim not0 not1
      · exact not2 eq
  all_goals
    rw [if_neg (by omega)]
    repeat' split at h
    all_goals cases h; rfl

/-- R90, R91: an instruction has two words exactly where its first word is one of R91's. -/
theorem decodeWords_words (h : decodeWords w k = some i) : i.words = if isTwoWord w then 2 else 1 := by
  by_cases group : fld w 12 4 = 9
  · rw [decodeWords, group] at h
    simp only [decode9_words h, isTwoWord_iff, group, true_and]
  · rw [if_neg fun two => group ((isTwoWord_iff w).mp two).1]
    unfold decodeWords at h
    split at h
    case h_1 => exact decode0_words h
    case h_2 => exact decode1_words h
    case h_3 => exact decode2_words h
    case h_9 | h_11 => exact decodeDisp_words h
    case h_10 nine => exact absurd nine group
    case h_12 =>
      split at h
      all_goals cases h; rfl
    case h_16 => exact decode15_words h
    all_goals cases h; rfl

/-- The second word decides an operand of LDS, STS, JMP or CALL and nothing else, so not whether a device has the
instruction. -/
theorem decodeWords_isPresent (c : Config) (w k k' : Word) :
    (decodeWords w k).map (Machine.isPresent c) = (decodeWords w k').map (Machine.isPresent c) := by
  have load : (decodeLoad w k).map (Machine.isPresent c) = (decodeLoad w k').map (Machine.isPresent c) := by
    unfold decodeLoad
    split <;> rfl
  have store : (decodeStore w k).map (Machine.isPresent c) = (decodeStore w k').map (Machine.isPresent c) := by
    unfold decodeStore
    split <;> rfl
  have one : (decodeOne w k).map (Machine.isPresent c) = (decodeOne w k').map (Machine.isPresent c) := by
    unfold decodeOne
    split <;> rfl
  have nine : (decode9 w k).map (Machine.isPresent c) = (decode9 w k').map (Machine.isPresent c) := by
    unfold decode9
    split
    · exact load
    · exact store
    · exact one
    all_goals rfl
  unfold decodeWords
  split
  case h_10 => exact nine
  all_goals rfl

end Sys2Proof
end

section
/-! The fetch (R321, R325): what it answers, and where a step reaches it. -/

namespace Sys2Proof.Machine

variable {s : State} {w k : Word} {i j : Instr}

/-! ### The instruction a word selects -/

theorem decodeAt_unassigned (h : decodeWords w 0 = none) : s.decodeAt w = .refused (.unassignedOpcode s.pc w) := by
  simp only [State.decodeAt, h]

theorem decodeAt_absent (h : decodeWords w 0 = some i) (absent : isPresent s.cfg i = false) :
    s.decodeAt w = .refused (.unassignedOpcode s.pc w) := by
  simp only [State.decodeAt, h, absent, Bool.not_false, if_true]

theorem decodeAt_one (h : decodeWords w 0 = some i) (present : isPresent s.cfg i = true)
    (one : isTwoWord w = false) : s.decodeAt w = .next i := by
  simp [State.decodeAt, ← BitVec.ofNat_eq_ofNat, h, present, one]

theorem decodeAt_two (h : decodeWords w 0 = some i) (present : isPresent s.cfg i = true) (two : isTwoWord w = true)
    (word : s.nextWord = .next k) (h' : decodeWords w k = some j) : s.decodeAt w = .next j := by
  simp [State.decodeAt, ← BitVec.ofNat_eq_ofNat, h, present, two, word, h']

theorem decodeAt_two_refused {r : Refusal} (h : decodeWords w 0 = some i) (present : isPresent s.cfg i = true)
    (two : isTwoWord w = true) (word : s.nextWord = .refused r) : s.decodeAt w = .refused r := by
  simp [State.decodeAt, ← BitVec.ofNat_eq_ofNat, h, present, two, word]

/-- Only instructions that the device has are answered (R113). -/
theorem decodeAt_present (w : Word) : (s.decodeAt w).Gives fun i => isPresent s.cfg i = true := by
  unfold State.decodeAt
  split
  · exact .refused _
  next i first =>
    refine .ite (fun _ => .refused _) fun there => .ite (fun _ j e => ?_) (fun _ => .next (by simpa using there))
    obtain ⟨k, -, e⟩ := Res.andThen_eq_next.mp e
    have same := decodeWords_isPresent s.cfg w k 0
    split at e
    next j' second =>
      cases e
      rw [second, first] at same
      rw [Option.some.inj same]
      simpa using there
    · cases e

/-! ### The word at pc -/

/-- The word at pc, its low byte at the even address (R62). -/
def State.wordAtPc (s : State) : Word := s.flashAt (2 * s.pc.toNat + 1) ++ s.flashAt (2 * s.pc.toNat)

theorem fetch_inside (h : s.pc.toNat ≤ s.cfg.flashEnd) : s.fetch = s.decodeAt s.wordAtPc := by
  rw [State.fetch, progWord_inside h, Res.andThen_next, State.wordAtPc]

theorem fetch_outside (h : s.cfg.flashEnd < s.pc.toNat) : s.fetch = .refused (.unmappedProgram s.pc.toNat) := by
  rw [State.fetch, progWord_outside h, Res.andThen_refused]

theorem fetch_present (s : State) : s.fetch.Gives fun i => isPresent s.cfg i = true :=
  Res.Gives.andThen (P := fun _ => True) (fun _ _ => trivial) fun w _ => decodeAt_present w

/-! ### The step -/

/-- A core that may still be woken does not end its run (R312). -/
theorem asleepForever_of_awake (h : s.sleeping = false) : s.asleepForever = false := by
  simp [State.asleepForever, h]

/-- A reset request is an input still queued, so the run has not ended. -/
theorem asleepForever_of_resetRequest (h : s.tick.resetRequest = true) : s.asleepForever = false := by
  unfold State.tick at h
  unfold State.asleepForever
  cases queue : s.envTicks with
  | nil => rw [queue] at h; cases h
  | cons => simp

/-- R325: awake, with no reset and no accepted interrupt, a step fetches and runs one instruction. -/
theorem step_eq_fetch (awake : s.sleeping = false) (noReset : s.tick.resetRequest = false)
    (noIrq : s.pollEnv.accepted = none) :
    step s = ({ s.pollEnv with irqHoldoff := false } : State).fetch.andThen fun i =>
      exec i { s.pollEnv with irqHoldoff := false } := by
  simp [step, State.runInstruction, asleepForever_of_awake awake, awake, noReset, noIrq]

/-- Everything a step that goes on can do; that the device has the instruction it runs is what the fetch checks. -/
theorem stepsTo_of_step {t : State} (h : step s = .next t) : StepsTo s t := by
  unfold step at h
  split_ifs at h
  · cases h
    exact .reset
  · split at h
    next n _ => exact .entry n h
    · unfold State.runInstruction at h
      split at h
      · cases h
        exact .asleep
      · obtain ⟨i, fetched, done⟩ := Res.andThen_eq_next.mp h
        exact .ran i (fetch_present _ i fetched) done

end Sys2Proof.Machine
end

section
/-! Every instruction that the device has, and so every step, keeps the invariant. -/

namespace Sys2Proof.Machine

variable {s : State}

/-- A device with ELPM has RAMPZ, so the incremented address has somewhere to go (R37, R254). -/
theorem execElpmZInc_inv (h : s.Inv) (hasElpm : s.cfg.has.elpm = true) (d : Reg) :
    (execElpmZInc d s).Gives State.Inv := by
  obtain ⟨-, -, -, -, -, -, -, -, -, -, rampz, -⟩ := h.sound
  refine offPointerOr_gives (progByte_andThen_gives fun v => .next ?_)
  exact ((State.Inv.writeCpu (r := .rampz) (h.setReg d v) (rampz hasElpm) _).setPair _ _).advance 1

/-- Only ELPM with Z+ asks that the device has the instruction: it writes RAMPZ, which a device without ELPM may
lack. -/
theorem exec_inv (h : s.Inv) {i : Instr} (present : isPresent s.cfg i = true) : Res.Gives (exec i s) State.Inv := by
  cases i with
  | add | adc | sub | subi | sbc | sbci | and | andi | or | ori | eor | com | neg | sbr | cbr | inc | dec
  | lsl | lsr | rol | ror | asr => exact writeResult_inv h _ _ _
  | adiw | sbiw | mul | muls | mulsu | fmul | fmuls | fmulsu => exact writePair_inv h _ _ _
  | tst | clr | ser | des | mov | movw | ldi | swap | bset | bclr | bst | bld
  | sec | clc | sen | cln | sez | clz | sei | cli | ses | cls | sev | clv | set | clt | seh | clh
  | nop | wdr => exact .next (State.Inv.advance h.outside 1)
  | sleep => exact .next (h.advance 1).outside
  | brk => exact .ite (fun _ => .fault _) fun _ => .next (h.advance 1)
  | rjmp => exact .next (h.jumpRel _)
  | ijmp | eijmp | jmp => exact .next (h.jump _)
  | rcall | icall | eicall | call => exact callTo_inv h _ _
  | ret => exact returnToPopped_inv h
  | reti => exact interruptReturn_inv h
  | cp | cpc | cpi => exact compare_inv h _
  | cpse | sbrc | sbrs => exact skip_inv h _
  | sbic | sbis => exact skip_inv (h.ioRead _) _
  | brbs | brbc | breq | brne | brcs | brcc | brsh | brlo | brmi | brpl | brge | brlt | brhs | brhc | brts | brtc
  | brvs | brvc | brie | brid => exact branchIf_inv h _ _
  | lds | ldX | ldY | ldZ | lddY | lddZ => exact loadFrom_inv h _ _ _
  | ldXInc | ldYInc | ldZInc => exact offPointerOr_gives (loadInc_inv h _ _)
  | ldXDec | ldYDec | ldZDec => exact offPointerOr_gives (loadDec_inv h _ _)
  | sts | stX | stY | stZ | stdY | stdZ => exact storeTo_inv h _ _ _
  | stXInc | stYInc | stZInc => exact offPointerOr_gives (storeInc_inv h _ _)
  | stXDec | stYDec | stZDec => exact offPointerOr_gives (storeDec_inv h _ _)
  | lpmR0 | lpmZ | elpmR0 | elpmZ => exact loadProgram_inv h _ _
  | lpmZInc d =>
    exact offPointerOr_gives (progByte_andThen_gives fun v => .next (((h.setReg d v).setPair _ _).advance 1))
  | elpmZInc d => exact execElpmZInc_inv h present d
  | spm | spmZInc => exact .refused _
  | in_ d a => exact .next (((h.ioRead _).setReg d _).advance 1)
  | out => exact .next ((h.ioWrite _ _).advance 1)
  | push => exact (push8_inv h _).andThen fun _ ht => .next (ht.advance 1)
  | pop d => exact (pop8_inv h).andThen fun _ ht => .next ((ht.setReg d _).advance 1)
  | sbi | cbi => exact .next ((h.ioBitWrite _ _ _).advance 1)

/-- Settles O58, by what a step can do (`StepsTo`): each of the four keeps the invariant, the instructions by
`exec_inv`, whose hypothesis the fetch supplies. -/
theorem stepKeepsInv : Obligations.StepKeepsInv := by
  intro s t h stepped
  have polled : State.Inv { s.pollEnv with irqHoldoff := false } := h.pollEnv.outside
  cases stepsTo_of_step stepped with
  | reset => exact h.pollEnv.resetEvent
  | entry n entered => exact interruptEntry_inv h.pollEnv n t entered
  | asleep => exact polled
  | ran i present done => exact exec_inv polled present t done

end Sys2Proof.Machine
end

section
/-! Pairs, pointers and program bytes through them (R21, R220, R252 to R254). -/

namespace Sys2Proof.Machine

variable {s : State}

/-! ### Pairs -/

/-- Settles O9: the pair laws of Laws/Values, an even register being below R31. -/
theorem registerPair : Obligations.RegisterPair := by
  intro s d v evenReg
  have next : (highOf d).val = d.val + 1 := highOf_val (by omega)
  refine ⟨pair_setPair s d v, ?_, ?_, next, fun e low high => reg_setPair_other s low high v, rfl⟩
  · rw [reg_setPair_low, lowByte_toNat]
  · rw [reg_setPair_high, highByte_toNat]

/-! ### Addresses of the addressing modes -/

theorem ptrAddr_small (small : s.cfg.hasRampx = false) (p : Ptr) : s.ptrAddr p = (s.ptr p).toNat := by
  simp [State.ptrAddr, bigData, small]

theorem ptrAddr_big (big : s.cfg.hasRampx = true) (p : Ptr) :
    s.ptrAddr p = (s.rampOf p).toNat * 65536 + (s.ptr p).toNat := by
  simp [State.ptrAddr, bigData, big]

theorem eaDirect_small (small : s.cfg.hasRampx = false) (k : Word) : s.eaDirect k = k.toNat := by
  simp [State.eaDirect, bigData, small]

theorem eaDirect_big (big : s.cfg.hasRampx = true) (k : Word) : s.eaDirect k = s.rampd.toNat * 65536 + k.toNat := by
  simp [State.eaDirect, bigData, big]

/-- The size of the data address space: 2^AW of R220. -/
def addrSpace (c : Config) : Nat := if c.hasRampx then 16777216 else 65536

theorem addrSpace_eq (c : Config) : 2 ^ addrBits c = addrSpace c := by
  unfold addrBits addrSpace bigData
  split <;> rfl

theorem wrapAddr_natCast (c : Config) (n : Nat) : wrapAddr c n = n % addrSpace c := by
  rw [wrapAddr, addrSpace_eq, ← Int.natCast_mod, Int.toNat_natCast]

theorem eaDisp_eq (p : Ptr) (q : BitVec 6) : s.eaDisp p q = (s.ptrAddr p + q.toNat) % addrSpace s.cfg :=
  wrapAddr_natCast s.cfg (s.ptrAddr p + q.toNat)

theorem incAddr_eq (p : Ptr) : s.incAddr p = (s.ptrAddr p + 1) % addrSpace s.cfg :=
  wrapAddr_natCast s.cfg (s.ptrAddr p + 1)

/-- One lower is the size of the space less one higher. -/
theorem decAddr_eq (p : Ptr) : s.decAddr p = (s.ptrAddr p + (addrSpace s.cfg - 1)) % addrSpace s.cfg := by
  have pos : 1 ≤ addrSpace s.cfg := by unfold addrSpace; split <;> decide
  rw [← wrapAddr_natCast, State.decAddr, wrapAddr, wrapAddr, addrSpace_eq,
    show ((s.ptrAddr p + (addrSpace s.cfg - 1) : Nat) : Int) = (s.ptrAddr p - 1) + addrSpace s.cfg by omega,
    Int.add_emod_right]

/-! ### Writing a pointer -/

theorem setRamp_regs (s : State) (p : Ptr) (v : Byte) : (s.setRamp p v).regs = s.regs := by
  cases p <;> rfl

theorem setPtrAddr_small (small : s.cfg.hasRampx = false) (p : Ptr) (n : Nat) :
    s.setPtrAddr p n = s.setPair (Ptr.low p) (BitVec.ofNat 16 n) := by
  simp [State.setPtrAddr, bigData, small]

theorem setPtrAddr_big (big : s.cfg.hasRampx = true) (p : Ptr) (n : Nat) :
    s.setPtrAddr p n = (s.setRamp p (BitVec.ofNat 8 (n / 65536))).setPair (Ptr.low p) (BitVec.ofNat 16 n) := by
  simp [State.setPtrAddr, bigData, big]

theorem rampOf_setPair (s : State) (d : Reg) (v : Word) (p : Ptr) : (s.setPair d v).rampOf p = s.rampOf p := by
  cases p <;> rfl

/-- The pointer holds the low 16 bits of the address written to it. -/
theorem ptr_setPtrAddr (s : State) (p : Ptr) (n : Nat) : (s.setPtrAddr p n).ptr p = BitVec.ofNat 16 n := by
  cases big : s.cfg.hasRampx with
  | false => rw [setPtrAddr_small big, State.ptr, pair_setPair]
  | true => rw [setPtrAddr_big big, State.ptr, pair_setPair]

theorem rampOf_setPtrAddr (s : State) (p : Ptr) (n : Nat) : (s.setPtrAddr p n).rampOf p =
    if s.cfg.hasRampx then BitVec.ofNat 8 (n / 65536) &&& keptBits s.cfg (Ptr.ramp p) else s.rampOf p := by
  cases big : s.cfg.hasRampx with
  | false => rw [setPtrAddr_small big, rampOf_setPair, if_neg Bool.false_ne_true]
  | true => rw [setPtrAddr_big big, rampOf_setPair, rampOf_setRamp, if_pos rfl]

theorem rampOf_setPtrAddr_other {p q : Ptr} (h : q ≠ p) (n : Nat) : (s.setPtrAddr p n).rampOf q = s.rampOf q := by
  cases big : s.cfg.hasRampx with
  | false => rw [setPtrAddr_small big, rampOf_setPair]
  | true => rw [setPtrAddr_big big, rampOf_setPair, rampOf_setRamp_other s h]

theorem reg_setPtrAddr_other {p : Ptr} {e : Reg} (low : e ≠ Ptr.low p) (high : e ≠ highOf (Ptr.low p)) (n : Nat) :
    (s.setPtrAddr p n).reg e = s.reg e := by
  cases big : s.cfg.hasRampx with
  | false => rw [setPtrAddr_small big, reg_setPair_other s low high]
  | true => rw [setPtrAddr_big big, reg_setPair_other _ low high, reg_congr (setRamp_regs s p _)]

/-- A pointer written changes general registers and RAMP registers alone. -/
theorem setPtrAddr_only (s : State) (p : Ptr) (n : Nat) :
    { s.setPtrAddr p n with regs := s.regs, rampx := s.rampx, rampy := s.rampy, rampz := s.rampz } = s := by
  cases big : s.cfg.hasRampx with
  | false => rw [setPtrAddr_small big]; rfl
  | true => rw [setPtrAddr_big big]; cases p <;> rfl

/-- Settles O28: each address as its sum modulo the size of the address space, which is R220's 2^AW for both widths;
then what a pointer write reaches. -/
theorem pointerAddresses : Obligations.PointerAddresses := by
  intro s p q k n
  refine ⟨fun small => ?_, fun big => ?_, ?_, rampOf_setPtrAddr s p n,
    fun e low high => reg_setPtrAddr_other low high n, fun p' other => rampOf_setPtrAddr_other other n,
    setPtrAddr_only s p n⟩
  · have space : addrSpace s.cfg = 65536 := by simp [addrSpace, small]
    rw [eaDisp_eq, incAddr_eq, decAddr_eq, space, ptrAddr_small small]
    exact ⟨rfl, rfl, rfl, rfl, eaDirect_small small k⟩
  · have space : addrSpace s.cfg = 16777216 := by simp [addrSpace, big]
    rw [eaDisp_eq, incAddr_eq, decAddr_eq, space, ptrAddr_big big]
    exact ⟨rfl, rfl, rfl, rfl, eaDirect_big big k⟩
  · rw [ptr_setPtrAddr, BitVec.toNat_ofNat]

/-! ### ELPM -/

theorem loadProgram_inside {b : Nat} (h : b / 2 ≤ s.cfg.flashEnd) (d : Reg) :
    s.loadProgram d b = .next { s with regs := s.regs.set d (s.flashAt b) d.isLt, pc := s.nextPc 1 } := by
  rw [State.loadProgram, progByte_inside h, Res.andThen_next, advance_eq]
  rfl

theorem loadProgram_outside {b : Nat} (h : s.cfg.flashEnd < b / 2) (d : Reg) :
    s.loadProgram d b = .refused (.unmappedProgram (b / 2)) := by
  rw [State.loadProgram, progByte_outside h, Res.andThen_refused]

theorem offPointerOr_off {p : Ptr} {d : Reg} (off : offPointer p d = true) (i : Instr) (go : Res State) :
    s.offPointerOr p d i go = go := if_pos off

/-- Bits 23 to 16 of the incremented address go to RAMPZ, bits 15 to 0 to Z. -/
theorem execElpmZInc_inside {d : Reg} (off : offPointer .z d = true) (h : s.elpmAddr / 2 ≤ s.cfg.flashEnd) :
    execElpmZInc d s = .next {
      (s.setReg d (s.flashAt s.elpmAddr)).setPair 30 (BitVec.ofNat 16 ((s.elpmAddr + 1) % 16777216 % 65536)) with
      rampz := BitVec.ofNat 8 ((s.elpmAddr + 1) % 16777216 / 65536) &&& keptBits s.cfg .rampz
      pc := s.nextPc 1 } := by
  have low : BitVec.ofNat 16 ((s.elpmAddr + 1) % 2 ^ 24) = BitVec.ofNat 16 ((s.elpmAddr + 1) % 16777216 % 65536) :=
    BitVec.eq_of_toNat_eq (by simp only [BitVec.toNat_ofNat]; omega)
  rw [execElpmZInc, offPointerOr_off off, progByte_inside h, Res.andThen_next]
  simp only [low, advance_eq]
  rfl

theorem execElpmZInc_outside {d : Reg} (off : offPointer .z d = true) (h : s.cfg.flashEnd < s.elpmAddr / 2) :
    execElpmZInc d s = .refused (.unmappedProgram (s.elpmAddr / 2)) := by
  rw [execElpmZInc, offPointerOr_off off, progByte_outside h, Res.andThen_refused]

/-- Settles O37: the three forms read the program byte at `elpmAddr`, which is RAMPZ:Z. -/
theorem elpmResult : Obligations.ElpmResult := by
  intro s d
  exact ⟨fun inside =>
      ⟨loadProgram_inside inside 0, loadProgram_inside inside d, fun off => execElpmZInc_inside off inside⟩,
    fun outside =>
      ⟨loadProgram_outside outside 0, loadProgram_outside outside d, fun off => execElpmZInc_outside off outside⟩⟩

end Sys2Proof.Machine
end

section
/-! The bits of SREG: the branches that test one and the instructions that write one (R25, R192 to R211, R277 to
R298). -/

namespace Sys2Proof.Machine

variable {s : State}

/-- The number an operand `s` has is the bit of the flag it names (R25). -/
theorem flagNumber_bit (n : BitVec 3) : (flagNumber n).bit = n.toNat := by
  revert n
  decide

/-- I alone stands at bit 7 (R25). -/
theorem bit_eq_seven (f : Flag) : f.bit = 7 ↔ f = .i := by
  cases f <;> decide

/-! ### Branches -/

theorem branchIf_eq (s : State) (cond : Bool) (k : BitVec 7) : s.branchIf cond k =
    .next { s with pc := if cond then pcAt s.cfg (s.pc.toNat + 1 + k.toInt) else s.nextPc 1 } := by
  cases cond with
  | false => exact congrArg Host.Outcome.next (advance_eq s 1)
  | true => exact congrArg Host.Outcome.next (jumpRel_eq s k.toInt)

/-- A branch where the flag is set tests that its bit of SREG is 1. -/
theorem branchIf_set (s : State) (f : Flag) (k : BitVec 7) : s.branchIf (s.flag f) k = .next { s with
    pc := if s.sreg.getLsbD f.bit = true then pcAt s.cfg (s.pc.toNat + 1 + k.toInt) else s.nextPc 1 } :=
  branchIf_eq s (s.flag f) k

/-- A branch where the flag is clear tests that its bit of SREG is 0. -/
theorem branchIf_clear (s : State) (f : Flag) (k : BitVec 7) : s.branchIf (!s.flag f) k = .next { s with
    pc := if s.sreg.getLsbD f.bit = false then pcAt s.cfg (s.pc.toNat + 1 + k.toInt) else s.nextPc 1 } := by
  rw [branchIf_eq]
  simp only [State.flag, flagOf, Bool.not_eq_true']

/-- Settles O17: each of the twenty is a branch on one flag set or clear, at the bit R25 gives the flag. -/
theorem branchResult : Obligations.BranchResult := by
  intro s n k
  rw [← flagNumber_bit n]
  simp only [List.forall_mem_cons]
  exact ⟨branchIf_set s (flagNumber n) k, branchIf_clear s (flagNumber n) k, branchIf_set s .z k,
    branchIf_clear s .z k, branchIf_set s .c k, branchIf_clear s .c k, branchIf_clear s .c k, branchIf_set s .c k,
    branchIf_set s .n k,
    branchIf_clear s .n k, branchIf_clear s .s k, branchIf_set s .s k, branchIf_set s .h k, branchIf_clear s .h k,
    branchIf_set s .t k, branchIf_clear s .t k, branchIf_set s .v k, branchIf_clear s .v k, branchIf_set s .i k,
    branchIf_clear s .i k, List.forall_mem_nil _⟩

/-! ### Flag instructions -/

/-- A flag written is its bit of SREG written and every other bit kept. -/
theorem putFlag_getLsbD (x : Byte) (f : Flag) (b : Bool) (j : Nat) :
    (putFlag x f b).getLsbD j = if j = f.bit then b else x.getLsbD j := by
  have low : f.bit < 8 := by cases f <;> decide
  have mask : (1#8 <<< f.bit).getLsbD j = decide (j = f.bit) := by
    rw [← BitVec.twoPow_eq, BitVec.getLsbD_twoPow]
    simp [low, eq_comm]
  cases b with
  | true =>
    change (x ||| 1#8 <<< f.bit).getLsbD j = _
    rw [BitVec.getLsbD_or, mask]
    split <;> simp [*]
  | false =>
    change (x &&& ~~~(1#8 <<< f.bit)).getLsbD j = _
    rw [BitVec.getLsbD_and, BitVec.getLsbD_not, mask]
    have inside : x.getLsbD j = true → j < 8 := BitVec.lt_of_getLsbD
    split <;> simp_all

/-- A flag written, as a fact about the bits of SREG. -/
theorem putFlag_bits (x : Byte) (f : Flag) (b : Bool) :
    (putFlag x f b).getLsbD f.bit = b ∧ ∀ j, j ≠ f.bit → (putFlag x f b).getLsbD j = x.getLsbD j :=
  ⟨by rw [putFlag_getLsbD, if_pos rfl], fun j other => by rw [putFlag_getLsbD, if_neg other]⟩

theorem setFlag_advance (s : State) (f : Flag) (b : Bool) :
    (s.setFlag f b).advance 1 = { s with sreg := putFlag s.sreg f b, pc := s.nextPc 1 } := by
  rw [advance_eq]
  rfl

/-- The hold-off starts where the flag is I and was clear (R326). -/
theorem raiseFlag_advance (s : State) (f : Flag) : (s.raiseFlag f).advance 1 = { s with
    sreg := putFlag s.sreg f true, pc := s.nextPc 1
    irqHoldoff := s.irqHoldoff || (decide (f.bit = 7) && !s.flag .i) } := by
  rw [advance_eq]
  simp only [bit_eq_seven]
  rfl

/-- A flag other than I needs no hold-off to be raised. -/
theorem raiseFlag_eq_setFlag (s : State) {f : Flag} (h : f ≠ .i) : s.raiseFlag f = s.setFlag f true := by
  simp [State.raiseFlag, State.setFlag, h]

/-- An instruction that raises a flag as R277 has it sets the flag's bit of SREG alone, with the hold-off of R326. -/
theorem sets_of_raiseFlag (i : Instr) (f : Flag) (h : exec i s = .next ((s.raiseFlag f).advance 1)) : ∃ x : Byte,
    exec i s = .next { s with
      sreg := x, pc := s.nextPc 1, irqHoldoff := s.irqHoldoff || (decide (f.bit = 7) && !s.flag .i) } ∧
    x.getLsbD f.bit = true ∧ ∀ j, j ≠ f.bit → x.getLsbD j = s.sreg.getLsbD j :=
  ⟨_, by rw [h, raiseFlag_advance], putFlag_bits s.sreg f true⟩

theorem sets_of_setFlag (i : Instr) {f : Flag} (other : f ≠ .i)
    (h : exec i s = .next ((s.setFlag f true).advance 1)) : ∃ x : Byte,
    exec i s = .next { s with
      sreg := x, pc := s.nextPc 1, irqHoldoff := s.irqHoldoff || (decide (f.bit = 7) && !s.flag .i) } ∧
    x.getLsbD f.bit = true ∧ ∀ j, j ≠ f.bit → x.getLsbD j = s.sreg.getLsbD j :=
  sets_of_raiseFlag i f (by rw [h, raiseFlag_eq_setFlag s other])

theorem clears_of_setFlag (i : Instr) (f : Flag) (h : exec i s = .next ((s.setFlag f false).advance 1)) : ∃ x : Byte,
    exec i s = .next { s with sreg := x, pc := s.nextPc 1 } ∧
    x.getLsbD f.bit = false ∧ ∀ j, j ≠ f.bit → x.getLsbD j = s.sreg.getLsbD j :=
  ⟨_, by rw [h, setFlag_advance], putFlag_bits s.sreg f false⟩

/-- Settles O43: each of the eighteen writes the one flag its rule names, I by the rule of the hold-off. -/
theorem flagInstructionResult : Obligations.FlagInstructionResult := by
  intro s n
  rw [← flagNumber_bit n]
  exact ⟨sets_of_raiseFlag _ (flagNumber n) rfl, clears_of_setFlag _ (flagNumber n) rfl,
    sets_of_setFlag .sec (f := .c) (by decide) rfl, sets_of_setFlag .sez (f := .z) (by decide) rfl,
    sets_of_setFlag .sen (f := .n) (by decide) rfl, sets_of_setFlag .sev (f := .v) (by decide) rfl,
    sets_of_setFlag .ses (f := .s) (by decide) rfl, sets_of_setFlag .seh (f := .h) (by decide) rfl,
    sets_of_setFlag .set (f := .t) (by decide) rfl, sets_of_raiseFlag .sei .i rfl,
    clears_of_setFlag .clc .c rfl, clears_of_setFlag .clz .z rfl, clears_of_setFlag .cln .n rfl,
    clears_of_setFlag .clv .v rfl, clears_of_setFlag .cls .s rfl, clears_of_setFlag .clh .h rfl,
    clears_of_setFlag .clt .t rfl, clears_of_setFlag .cli .i rfl⟩

end Sys2Proof.Machine
end

section
/-! IN and OUT at the locations of the CPU's own registers, with the default map (R34 to R40, R79, R257, R258). -/

namespace Sys2Proof.Machine

variable {s : State} {a : BitVec 6} {c : CpuReg}

/-! ### IN and OUT by what stands at the location -/

theorem in_cpuReg (h : cpuRegAt s.cfg a.toNat = some c) (r : Reg) :
    exec (.in_ r a) s = .next { s with regs := s.regs.set r (s.readCpu c) r.isLt, pc := s.nextPc 1 } := by
  change Host.Outcome.next (((s.ioRead a.toNat).2.setReg r (s.ioRead a.toNat).1).advance 1) = _
  simp only [State.ioRead, h, advance_eq]
  rfl

theorem out_cpuReg (h : cpuRegAt s.cfg a.toNat = some c) (r : Reg) :
    exec (.out a r) s = .next { s.writeCpu c (s.reg r) with pc := s.nextPc 1 } := by
  have beyond := writeCpu_beyond s c (s.reg r)
  change Host.Outcome.next ((s.ioWrite a.toNat (s.reg r)).advance 1) = _
  simp only [State.ioWrite, h, advance_eq, State.nextPc, beyond.cfg, beyond.pc]

theorem in_environment (h : cpuRegAt s.cfg a.toNat = none) (r : Reg) :
    exec (.in_ r a) s = .next { (s.envRead (.io a.toNat)).2 with
      regs := s.regs.set r (s.envRead (.io a.toNat)).1 r.isLt, pc := s.nextPc 1 } := by
  change Host.Outcome.next (((s.ioRead a.toNat).2.setReg r (s.ioRead a.toNat).1).advance 1) = _
  have only := envRead_only s (.io a.toNat)
  simp only [State.ioRead, h, advance_eq]
  rw [only]
  rfl

theorem out_environment (h : cpuRegAt s.cfg a.toNat = none) (r : Reg) :
    exec (.out a r) s = .next { s with
      envTrace := .write (.io a.toNat) (s.reg r) :: s.envTrace, pc := s.nextPc 1 } := by
  change Host.Outcome.next ((s.ioWrite a.toNat (s.reg r)).advance 1) = _
  simp only [State.ioWrite, h, advance_eq]
  rfl

/-! ### The default map (R40) -/

/-- The location of a CPU register in the default map. -/
def CpuReg.defaultLoc : CpuReg → Nat
  | .rampd => 0x38
  | .rampx => 0x39
  | .rampy => 0x3A
  | .rampz => 0x3B
  | .eind => 0x3C
  | .spl => 0x3D
  | .sph => 0x3E
  | .sreg => 0x3F

/-- With the default map a register that the device has stands at its own location; SPH needs an SP wider than 8
bits (R40). -/
theorem cpuRegAt_default {cfg : Config} (map : cfg.io = defaultIo) {c : CpuReg} (has : c.isIn cfg = true)
    (wide : c = .sph → 8 < cfg.spBits) : cpuRegAt cfg c.defaultLoc = some c := by
  unfold cpuRegAt
  cases c <;> simp_all [defaultIo, CpuReg.defaultLoc, CpuReg.isIn]

/-- The location of a register that the device lacks is the environment's. -/
theorem cpuRegAt_default_none {cfg : Config} (map : cfg.io = defaultIo) {c : CpuReg} (lacks : c.isIn cfg = false) :
    cpuRegAt cfg c.defaultLoc = none := by
  unfold cpuRegAt
  cases c <;> simp_all [defaultIo, CpuReg.defaultLoc, CpuReg.isIn]

/-! ### SREG and SP -/

theorem setSp_of_sixteen (width : s.cfg.spBits = 16) (v : Word) : s.setSp v.toNat = { s with sp := v } := by
  rw [setSp_eq, spAt_of_lt (by rw [width]; exact v.isLt), BitVec.ofNat_toNat, BitVec.setWidth_eq]

theorem append_eq_ofNat (hi lo : Byte) : (hi ++ lo : Word) = BitVec.ofNat 16 (hi.toNat * 256 + lo.toNat) := by
  rw [← append_toNat, BitVec.ofNat_toNat, BitVec.setWidth_eq]

theorem lowByte_eq_ofNat (v : Word) : lowByte v = BitVec.ofNat 8 (v.toNat % 256) := by
  rw [← lowByte_toNat, BitVec.ofNat_toNat, BitVec.setWidth_eq]

theorem highByte_eq_ofNat (v : Word) : highByte v = BitVec.ofNat 8 (v.toNat / 256) := by
  rw [← highByte_toNat, BitVec.ofNat_toNat, BitVec.setWidth_eq]

/-- I is bit 7 of the byte (R25). -/
theorem flagOf_i (x : Byte) : flagOf x .i = decide (128 ≤ x.toNat) := by
  have := BitVec.msb_eq_decide x
  rwa [BitVec.msb_eq_getLsbD_last] at this

/-- Settles O40: what stands at the three locations, then the value of each register in arithmetic. -/
theorem sregAndSpAsIo : Obligations.SregAndSpAsIo := by
  intro s r map width
  have sreg : cpuRegAt s.cfg (0x3F : BitVec 6).toNat = some .sreg := cpuRegAt_default (c := .sreg) map rfl nofun
  have spl : cpuRegAt s.cfg (0x3D : BitVec 6).toNat = some .spl := cpuRegAt_default (c := .spl) map rfl nofun
  have sph : cpuRegAt s.cfg (0x3E : BitVec 6).toNat = some .sph :=
    cpuRegAt_default (c := .sph) map rfl fun _ => by rw [width]; decide
  rw [in_cpuReg sreg, in_cpuReg spl, in_cpuReg sph, out_cpuReg sreg, out_cpuReg spl, out_cpuReg sph]
  refine ⟨rfl, ?_, ?_, ?_, ?_, ?_⟩
  · simp only [State.readCpu, lowByte_eq_ofNat]
  · simp only [State.readCpu, highByte_eq_ofNat]
  · simp only [State.writeCpu, State.writeSreg, flagOf_i, State.flag]
  · simp only [State.writeCpu, setSp_of_sixteen width, append_eq_ofNat, highByte_toNat]
  · simp only [State.writeCpu, setSp_of_sixteen width, append_eq_ofNat, lowByte_toNat]

/-! ### Extension registers -/

/-- IN and OUT where an extension register may stand: the register where the device has it, which keeps the bits that
it needs, else the environment. -/
theorem extension_location (map : s.cfg.io = defaultIo) (r : Reg) (loc : c.defaultLoc = a.toNat) (notSph : c ≠ .sph)
    {put : Byte → State} (writes : ∀ v, s.writeCpu c v = put (v &&& keptBits s.cfg c)) {needs : Nat → Bool}
    (kept : ∀ k < 8, (keptBits s.cfg c).getLsbD k = needs k) :
    (c.isIn s.cfg = true →
      exec (.in_ r a) s = .next { s with regs := s.regs.set r (s.readCpu c) r.isLt, pc := s.nextPc 1 } ∧
      ∃ x : Byte, (∀ k < 8, x.getLsbD k = ((s.reg r).getLsbD k && needs k)) ∧
        exec (.out a r) s = .next { put x with pc := s.nextPc 1 }) ∧
    (c.isIn s.cfg = false →
      exec (.in_ r a) s = .next { (s.envRead (.io a.toNat)).2 with
        regs := s.regs.set r (s.envRead (.io a.toNat)).1 r.isLt, pc := s.nextPc 1 } ∧
      exec (.out a r) s = .next { s with
        envTrace := .write (.io a.toNat) (s.reg r) :: s.envTrace, pc := s.nextPc 1 }) := by
  constructor
  · intro has
    have stands := loc ▸ cpuRegAt_default map has fun h => absurd h notSph
    refine ⟨in_cpuReg stands r, s.reg r &&& keptBits s.cfg c, fun k hk => ?_, ?_⟩
    · rw [BitVec.getLsbD_and, kept k hk]
    · rw [out_cpuReg stands, writes]
  · intro lacks
    have stands := loc ▸ cpuRegAt_default_none map lacks
    exact ⟨in_environment stands r, out_environment stands r⟩

/-- Bit `k` of RAMPD, RAMPX and RAMPY: some address of the data space has bit `16 + k` (R37, log 22). -/
theorem neededBits_bit (top : Nat) {k : Nat} (h : k < 8) :
    (neededBits top).getLsbD k = decide (2 ^ (16 + k) ≤ top) := by
  rw [neededBits_getLsbD]
  simp only [h, true_and]

/-- Bit `k` of RAMPZ: some address of program memory or, with RAMPX, of the data space has bit `16 + k`. -/
theorem keptBits_rampz_bit (cfg : Config) {k : Nat} (h : k < 8) : (keptBits cfg .rampz).getLsbD k =
    (decide (2 ^ (16 + k) ≤ 2 * cfg.flashEnd + 1) || cfg.hasRampx && decide (2 ^ (16 + k) ≤ cfg.ramEnd)) := by
  rw [keptBits, neededBits_bit _ h]
  cases cfg.hasRampx <;> simp

/-- Settles O41: the five locations, each with its own needed bits. -/
theorem extensionRegistersAsIo : Obligations.ExtensionRegistersAsIo := by
  intro s r map
  have whole (k : Nat) (h : k < 8) : (0xFF : Byte).getLsbD k = true := by
    interval_cases k <;> rfl
  exact ⟨extension_location (c := .rampd) map r rfl (by decide) (fun _ => rfl) fun _ => neededBits_bit _,
    extension_location (c := .rampx) map r rfl (by decide) (fun _ => rfl) fun _ => neededBits_bit _,
    extension_location (c := .rampy) map r rfl (by decide) (fun _ => rfl) fun _ => neededBits_bit _,
    extension_location (c := .rampz) map r rfl (by decide) (fun _ => rfl) fun _ => keptBits_rampz_bit _,
    extension_location (c := .eind) map r rfl (by decide)
      (fun v => congrArg (fun x => { s with eind := x }) (BitVec.and_allOnes).symm) whole⟩

end Sys2Proof.Machine
end

section
/-! The step at the fetch and at a reset (R47, R321, R325, R350). -/

namespace Sys2Proof.Machine

variable {s : State} {w k : Word} {i : Instr} {rest : List Byte}

/-! ### The instruction that the bytes at pc decode to -/

/-- The decoder on the bytes of two words: with the second where R91 says so, else the first alone. -/
theorem decode_two_words {b0 b1 b2 b3 : Byte} (h : decode [b0, b1, b2, b3] = .ok (i, rest)) :
    isTwoWord (b1 ++ b0) = true ∧ decodeWords (b1 ++ b0) (b3 ++ b2) = some i ∨
    isTwoWord (b1 ++ b0) = false ∧ decodeWords (b1 ++ b0) 0 = some i := by
  simp only [decode] at h
  split at h
  next two =>
    refine .inl ⟨two, ?_⟩
    split at h
    next found => cases h; exact found
    · cases h
  next one =>
    refine .inr ⟨by simpa using one, ?_⟩
    split at h
    next found => cases h; exact found
    · cases h

/-- Whether the device has an instruction is settled before its second word is read (R321, log 24). -/
theorem decodeWords_zero_present {c : Config} (h : decodeWords w k = some i) (present : isPresent c i = true) :
    ∃ j, decodeWords w 0 = some j ∧ isPresent c j = true := by
  have same := decodeWords_isPresent c w 0 k
  rwa [h, Option.map_some, present, Option.map_eq_some_iff] at same

/-- R321: a mapped instruction that the device has is what the fetch answers. -/
theorem fetch_decode
    (h : decode [s.flashAt (2 * s.pc.toNat), s.flashAt (2 * s.pc.toNat + 1), s.flashAt (2 * (s.nextPc 1).toNat),
      s.flashAt (2 * (s.nextPc 1).toNat + 1)] = .ok (i, rest))
    (present : isPresent s.cfg i = true) (inside : s.pc.toNat ≤ s.cfg.flashEnd)
    (insideSecond : i.words = 2 → (s.nextPc 1).toNat ≤ s.cfg.flashEnd) : s.fetch = .next i := by
  rw [fetch_inside inside]
  rcases decode_two_words h with ⟨two, found⟩ | ⟨one, found⟩
  · obtain ⟨j, first, there⟩ := decodeWords_zero_present found present
    have words : i.words = 2 := by rw [decodeWords_words found, if_pos two]
    exact decodeAt_two first there two (nextWord_inside (insideSecond words)) found
  · exact decodeAt_one found present one

/-- Settles O47: the step fetches (`step_eq_fetch`), and the environment's inputs change nothing that the fetch
reads. -/
theorem stepRunsDecoded : Obligations.StepRunsDecoded := by
  intro s i rest a b awake noReset noIrq decoded present inside insideSecond
  have fetched : State.fetch { s.pollEnv with irqHoldoff := false } = .next i :=
    fetch_decode decoded present inside insideSecond
  rw [step_eq_fetch awake noReset noIrq, fetched, Res.andThen_next]

/-! ### Where the fetch is refused -/

/-- R91: an instruction of two words has one of the first words R91 lists. -/
theorem isTwoWord_of_words (h : decodeWords w k = some i) (words : i.words = 2) : isTwoWord w = true := by
  rw [decodeWords_words h] at words
  by_contra one
  rw [if_neg one] at words
  cases words

/-- A step at the fetch is refused as the fetch is. -/
theorem step_refused {r : Refusal} (awake : s.sleeping = false) (noReset : s.tick.resetRequest = false)
    (noIrq : s.pollEnv.accepted = none) (h : State.fetch { s.pollEnv with irqHoldoff := false } = .refused r) :
    step s = .refused r := by
  rw [step_eq_fetch awake noReset noIrq, h, Res.andThen_refused]

/-- Settles O48: the four refusals of the fetch, in the order of R321. -/
theorem fetchStops : Obligations.FetchStops := by
  rintro s w awake noReset noIrq rfl
  have stops {r : Refusal} := step_refused (r := r) awake noReset noIrq
  refine ⟨fun above => stops (fetch_outside above), fun inside => ⟨fun unassigned => ?_, fun i found absent => ?_,
    fun i found present words above => ?_⟩⟩
  · exact stops ((fetch_inside inside).trans (decodeAt_unassigned unassigned))
  · exact stops ((fetch_inside inside).trans (decodeAt_absent found absent))
  · exact stops ((fetch_inside inside).trans
      (decodeAt_two_refused found present (isTwoWord_of_words found words) (nextWord_outside above)))

/-! ### Reset -/

/-- Settles O55: a reset request comes before everything else of the step, and the reset event follows the
environment's inputs. -/
theorem resetRequest : Obligations.ResetRequest := by
  intro s requested
  have asleep := asleepForever_of_resetRequest requested
  simp only [step, asleep, requested, Bool.false_eq_true, if_false, if_true, ← wrapSp_eq]
  rfl

/-- Settles O56: the fields of `State.reset` as R47's table has them. -/
theorem resetState : Obligations.ResetState := ⟨rfl, rfl, rfl, rfl, rfl, rfl, rfl, rfl, rfl, rfl, rfl⟩

end Sys2Proof.Machine
end

section
/-! The decoder on what the encoder writes (R90 to R114): the fields of each format, and every instruction of the format
decoded from them. -/

namespace Sys2Proof

/-! ### Fields of a word written as a number -/

/-- A field at `lo` of a word whose number is `hi` from bit `cut` on. -/
theorem fld_of_div {n hi cut lo len : Nat} (h : n / 2 ^ cut = hi) (le : cut ≤ lo) (fits : lo + len ≤ 16) :
    fld (BitVec.ofNat 16 n) lo len = hi / 2 ^ (lo - cut) % 2 ^ len := by
  rw [fld, BitVec.toNat_ofNat, ← Nat.mod_mul_right_div_self, ← pow_add, Nat.mod_mod_of_dvd _ (pow_dvd_pow 2 fits),
    pow_add, Nat.mod_mul_right_div_self, ← h, Nat.div_div_eq_div_mul, ← pow_add, Nat.add_sub_cancel' le]

theorem fld_ofNat {n lo len : Nat} (fits : lo + len ≤ 16) : fld (BitVec.ofNat 16 n) lo len = n / 2 ^ lo % 2 ^ len := by
  rw [fld_of_div rfl le_rfl fits, Nat.sub_self, pow_zero, Nat.div_one]

theorem regOf_eq {n : Nat} {d : Reg} (h : n = d.val) : regOf n = d :=
  Fin.ext (by rw [h]; exact Nat.mod_eq_of_lt d.isLt)

theorem ofNat_eq_of_toNat {w n : Nat} {x : BitVec w} (h : n = x.toNat) : BitVec.ofNat w n = x := by
  rw [h, BitVec.ofNat_toNat, BitVec.setWidth_eq]

/-! ### The fields of each format -/

/-- R93. The register number `r` stands in two parts. -/
theorem encRdRr_fields {op : Nat} (h : op < 64) (d r : Reg) :
    fld (encRdRr op d r) 12 4 = op / 4 ∧ fld (encRdRr op d r) 10 2 = op % 4 ∧
    fieldD5 (encRdRr op d r) = d ∧ fieldR5 (encRdRr op d r) = r := by
  have top : (op * 1024 + r.val / 16 * 512 + d.val * 16 + r.val % 16) / 2 ^ 10 = op := by omega
  simp only [encRdRr, fld_of_div top, fieldD5, fieldR5, fld_ofNat, Nat.reduceAdd, Nat.reduceLeDiff]
  refine ⟨?_, ?_, regOf_eq ?_, regOf_eq ?_⟩ <;> omega

/-- R94. -/
theorem encRdK8_fields {op : Nat} (h : op < 16) {d : Reg} (reg : upper d = true) (k : Byte) :
    fld (encRdK8 op d k) 12 4 = op ∧ fieldUpper (encRdK8 op d k) = d ∧ fieldK8 (encRdK8 op d k) = k := by
  have above : 16 ≤ d.val := by simpa [upper] using reg
  have byte := k.isLt
  have top : (op * 4096 + k.toNat / 16 * 256 + (d.val - 16) * 16 + k.toNat % 16) / 2 ^ 12 = op := by omega
  simp only [encRdK8, fld_of_div top, fieldUpper, fieldK8, fld_ofNat, Nat.reduceAdd, Nat.reduceLeDiff]
  refine ⟨?_, regOf_eq ?_, ofNat_eq_of_toNat ?_⟩ <;> omega

/-- R95. -/
theorem encRd5_fields {op : Nat} (h : op < 16) (d : Reg) :
    fld (encRd5 op d) 12 4 = 9 ∧ fld (encRd5 op d) 9 3 = 2 ∧ fld (encRd5 op d) 0 4 = op ∧
    fieldD5 (encRd5 op d) = d := by
  simp only [encRd5, fieldD5, fld_ofNat, Nat.reduceAdd, Nat.reduceLeDiff]
  refine ⟨?_, ?_, ?_, regOf_eq ?_⟩ <;> omega

/-- R96. -/
theorem encRdpK6_fields {op : Nat} (h : op < 2) {d : Reg} (reg : topPair d = true) (k : BitVec 6) :
    fld (encRdpK6 op d k) 12 4 = 9 ∧ fld (encRdpK6 op d k) 9 3 = 3 ∧ fld (encRdpK6 op d k) 8 1 = op ∧
    fieldPair (encRdpK6 op d k) = d ∧ fieldK6 (encRdpK6 op d k) = k := by
  have pair : 24 ≤ d.val ∧ d.val % 2 = 0 := by simpa [topPair] using reg
  have six := k.isLt
  have top :
      (0x9600 + op * 256 + k.toNat / 16 * 64 + (d.val - 24) / 2 * 16 + k.toNat % 16) / 2 ^ 8 = 150 + op := by omega
  simp only [encRdpK6, fld_of_div top, fieldPair, fieldK6, fld_ofNat, Nat.reduceAdd, Nat.reduceLeDiff]
  refine ⟨?_, ?_, ?_, regOf_eq ?_, ofNat_eq_of_toNat ?_⟩ <;> omega

/-- R97. -/
theorem encRd4Rr4_fields {op a b : Nat} (h : op < 4) (ha : a < 16) (hb : b < 16) :
    fld (encRd4Rr4 op a b) 12 4 = 0 ∧ fld (encRd4Rr4 op a b) 10 2 = 0 ∧ fld (encRd4Rr4 op a b) 8 2 = op ∧
    fld (encRd4Rr4 op a b) 4 4 = a ∧ fld (encRd4Rr4 op a b) 0 4 = b := by
  simp only [encRd4Rr4, fld_ofNat, Nat.reduceAdd, Nat.reduceLeDiff]
  omega

/-- R98. -/
theorem encRd3Rr3_fields {x y : Nat} (hx : x < 2) (hy : y < 2) {d r : Reg} (hd : middle d = true)
    (hr : middle r = true) :
    fld (encRd3Rr3 x y d r) 12 4 = 0 ∧ fld (encRd3Rr3 x y d r) 10 2 = 0 ∧ fld (encRd3Rr3 x y d r) 8 2 = 3 ∧
    fld (encRd3Rr3 x y d r) 7 1 = x ∧ fld (encRd3Rr3 x y d r) 3 1 = y ∧
    regOf (16 + fld (encRd3Rr3 x y d r) 4 3) = d ∧ regOf (16 + fld (encRd3Rr3 x y d r) 0 3) = r := by
  have first : 16 ≤ d.val ∧ d.val ≤ 23 := by simpa [middle] using hd
  have second : 16 ≤ r.val ∧ r.val ≤ 23 := by simpa [middle] using hr
  simp only [encRd3Rr3, fld_ofNat, Nat.reduceAdd, Nat.reduceLeDiff]
  refine ⟨?_, ?_, ?_, ?_, ?_, regOf_eq ?_, regOf_eq ?_⟩ <;> omega

/-- R99. -/
theorem encK4_fields (k : BitVec 4) :
    fld (encK4 k) 12 4 = 9 ∧ fld (encK4 k) 9 3 = 2 ∧ fld (encK4 k) 0 4 = 11 ∧ fld (encK4 k) 8 1 = 0 ∧
    fld (encK4 k) 4 4 = k.toNat := by
  have four := k.isLt
  simp only [encK4, fld_ofNat, Nat.reduceAdd, Nat.reduceLeDiff]
  omega

/-- R100. -/
theorem encK12_fields {op : Nat} (h : op < 2) (k : BitVec 12) :
    fld (encK12 op k) 12 4 = 12 + op ∧ fieldK12 (encK12 op k) = k := by
  have twelve := k.isLt
  simp only [encK12, fieldK12, fld_ofNat, Nat.reduceAdd, Nat.reduceLeDiff]
  refine ⟨?_, ofNat_eq_of_toNat ?_⟩ <;> omega

/-- R101. The lowest bit of the first word is bit 16 of the address. -/
theorem encK22_fields {op : Nat} (h : op < 2) (k : PAddr) :
    fld (encK22 op k) 12 4 = 9 ∧ fld (encK22 op k) 9 3 = 2 ∧
    fld (encK22 op k) 0 4 = 12 + 2 * op + k.toNat / 65536 % 2 ∧
    fieldK22 (encK22 op k) (lowWord k) = k := by
  have width := k.isLt
  have top : (0x940C + k.toNat / 131072 * 16 + op * 2 + k.toNat / 65536 % 2) / 2 ^ 9 = 74 := by omega
  simp only [encK22, fld_of_div top, fieldK22, lowWord, fld_ofNat, BitVec.toNat_ofNat, Nat.reduceAdd, Nat.reduceLeDiff]
  refine ⟨?_, ?_, ?_, ofNat_eq_of_toNat ?_⟩ <;> omega

/-- R102. -/
theorem encS3k7_fields {op : Nat} (h : op < 2) (s : BitVec 3) (k : BitVec 7) :
    fld (encS3k7 op s k) 12 4 = 15 ∧ fld (encS3k7 op s k) 10 2 = op ∧ fieldLow3 (encS3k7 op s k) = s ∧
    fieldK7 (encS3k7 op s k) = k := by
  have three := s.isLt
  have seven := k.isLt
  simp only [encS3k7, fieldLow3, fieldK7, fld_ofNat, Nat.reduceAdd, Nat.reduceLeDiff]
  refine ⟨?_, ?_, ofNat_eq_of_toNat ?_, ofNat_eq_of_toNat ?_⟩ <;> omega

/-- R103. -/
theorem encS3_fields {op : Nat} (h : op < 2) (s : BitVec 3) :
    fld (encS3 op s) 12 4 = 9 ∧ fld (encS3 op s) 9 3 = 2 ∧ fld (encS3 op s) 0 4 = 8 ∧ fld (encS3 op s) 8 1 = 0 ∧
    fld (encS3 op s) 7 1 = op ∧ fieldS3 (encS3 op s) = s := by
  have three := s.isLt
  simp only [encS3, fieldS3, fld_ofNat, Nat.reduceAdd, Nat.reduceLeDiff]
  refine ⟨?_, ?_, ?_, ?_, ?_, ofNat_eq_of_toNat ?_⟩ <;> omega

/-- R104. -/
theorem encRb_fields {op : Nat} (h : op < 4) (r : Reg) (b : BitVec 3) :
    fld (encRb op r b) 12 4 = 15 ∧ fld (encRb op r b) 10 2 = 2 + op / 2 ∧ fld (encRb op r b) 9 1 = op % 2 ∧
    fld (encRb op r b) 3 1 = 0 ∧ fieldD5 (encRb op r b) = r ∧ fieldLow3 (encRb op r b) = b := by
  have three := b.isLt
  simp only [encRb, fieldD5, fieldLow3, fld_ofNat, Nat.reduceAdd, Nat.reduceLeDiff]
  refine ⟨?_, ?_, ?_, ?_, regOf_eq ?_, ofNat_eq_of_toNat ?_⟩ <;> omega

/-- R105. -/
theorem encA5b_fields {op : Nat} (h : op < 4) (a : BitVec 5) (b : BitVec 3) :
    fld (encA5b op a b) 12 4 = 9 ∧ fld (encA5b op a b) 9 3 = 4 + op / 2 ∧ fld (encA5b op a b) 8 1 = op % 2 ∧
    fieldA5 (encA5b op a b) = a ∧ fieldLow3 (encA5b op a b) = b := by
  have five := a.isLt
  have three := b.isLt
  simp only [encA5b, fieldA5, fieldLow3, fld_ofNat, Nat.reduceAdd, Nat.reduceLeDiff]
  refine ⟨?_, ?_, ?_, ofNat_eq_of_toNat ?_, ofNat_eq_of_toNat ?_⟩ <;> omega

/-- R106. -/
theorem encA6Rd_fields {op : Nat} (h : op < 2) (r : Reg) (a : BitVec 6) :
    fld (encA6Rd op r a) 12 4 = 11 ∧ fld (encA6Rd op r a) 11 1 = op ∧ fieldD5 (encA6Rd op r a) = r ∧
    fieldA6 (encA6Rd op r a) = a := by
  have six := a.isLt
  have top : (0xB000 + op * 2048 + a.toNat / 16 * 512 + r.val * 16 + a.toNat % 16) / 2 ^ 11 = 22 + op := by omega
  simp only [encA6Rd, fld_of_div top, fieldD5, fieldA6, fld_ofNat, Nat.reduceAdd, Nat.reduceLeDiff]
  refine ⟨?_, ?_, regOf_eq ?_, ofNat_eq_of_toNat ?_⟩ <;> omega

/-- R107, R109. -/
theorem encLdSt_fields {s m : Nat} (hs : s < 2) (hm : m < 16) (r : Reg) :
    fld (encLdSt s r m) 12 4 = 9 ∧ fld (encLdSt s r m) 9 3 = s ∧ fld (encLdSt s r m) 0 4 = m ∧
    fieldD5 (encLdSt s r m) = r := by
  simp only [encLdSt, fieldD5, fld_ofNat, Nat.reduceAdd, Nat.reduceLeDiff]
  refine ⟨?_, ?_, ?_, regOf_eq ?_⟩ <;> omega

/-- R108. The highest bit of `q` is bit 13, so the word is one of the two groups `10q0`. -/
theorem encLddStd_fields {s y : Nat} (hs : s < 2) (hy : y < 2) (r : Reg) (q : BitVec 6) :
    (fld (encLddStd s y r q) 12 4 = 8 ∨ fld (encLddStd s y r q) 12 4 = 10) ∧ fld (encLddStd s y r q) 9 1 = s ∧
    fld (encLddStd s y r q) 3 1 = y ∧ fieldD5 (encLddStd s y r q) = r ∧ fieldQ (encLddStd s y r q) = q := by
  have six := q.isLt
  have top :
      (0x8000 + q.toNat / 32 * 8192 + q.toNat / 8 % 4 * 1024 + s * 512 + r.val * 16 + y * 8 + q.toNat % 8) / 2 ^ 9 =
        64 + q.toNat / 32 * 16 + q.toNat / 8 % 4 * 2 + s := by omega
  simp only [encLddStd, fld_of_div top, fieldD5, fieldQ, fld_ofNat, Nat.reduceAdd, Nat.reduceLeDiff]
  refine ⟨?_, ?_, ?_, regOf_eq ?_, ofNat_eq_of_toNat ?_⟩ <;> omega

/-! ### Every core instruction decodes to itself -/

/-- MUL alone has bits 15 to 10 of `100111`: bits 11 to 9 are 6 or 7. -/
theorem decodeWords_mul (d r : Reg) (k : Word) : decodeWords (encRdRr 0b100111 d r) k = some (.mul d r) := by
  obtain ⟨group, -, hd, hr⟩ := encRdRr_fields (op := 0b100111) (by decide) d r
  have top : fld (encRdRr 0b100111 d r) 9 3 = 6 ∨ fld (encRdRr 0b100111 d r) 9 3 = 7 := by
    simp only [encRdRr, fld_ofNat, Nat.reduceAdd, Nat.reduceLeDiff]
    omega
  rcases top with top | top <;> simp [decodeWords, decode9, group, top, hd, hr]

theorem decodeWords_movw {d r : Reg} (hd : d.val % 2 = 0) (hr : r.val % 2 = 0) (k : Word) :
    decodeWords (encRd4Rr4 0b01 (d.val / 2) (r.val / 2)) k = some (.movw d r) := by
  have first : regOf (2 * (d.val / 2)) = d := regOf_eq (by omega)
  have second : regOf (2 * (r.val / 2)) = r := regOf_eq (by omega)
  simp [decodeWords, decode0, encRd4Rr4_fields _ (show d.val / 2 < 16 by omega) (show r.val / 2 < 16 by omega), first,
    second]

theorem decodeWords_muls {d r : Reg} (hd : 16 ≤ d.val) (hr : 16 ≤ r.val) (k : Word) :
    decodeWords (encRd4Rr4 0b10 (d.val - 16) (r.val - 16)) k = some (.muls d r) := by
  have first : regOf (16 + (d.val - 16)) = d := regOf_eq (by omega)
  have second : regOf (16 + (r.val - 16)) = r := regOf_eq (by omega)
  simp [decodeWords, decode0, encRd4Rr4_fields _ (show d.val - 16 < 16 by omega) (show r.val - 16 < 16 by omega), first,
    second]

/-- The lowest bit of the first word is a bit of the address, so JMP and CALL have two words each in the group. -/
theorem decodeWords_encK22 (k : PAddr) :
    decodeWords (encK22 0 k) (lowWord k) = some (.jmp k) ∧ decodeWords (encK22 1 k) (lowWord k) = some (.call k) := by
  have lowest : k.toNat / 65536 % 2 = 0 ∨ k.toNat / 65536 % 2 = 1 := Nat.mod_two_eq_zero_or_one _
  rcases lowest with bit | bit <;> simp [decodeWords, decode9, decodeOne, encK22_fields, bit]

/-- Whichever of the two groups `10q0` the word is of, the same decoder reads it. -/
theorem decodeWords_encLddStd {s y : Nat} (hs : s < 2) (hy : y < 2) (r : Reg) (q : BitVec 6) (k : Word) :
    decodeWords (encLddStd s y r q) k = decodeDisp (encLddStd s y r q) := by
  rcases (encLddStd_fields hs hy r q).1 with group | group <;> simp only [decodeWords, group]

/-- The second word that `encode` gives an instruction, 0 where it gives one word. -/
def secondWord (i : Instr) : Word := (encode i).getD 1 0

/-- A well-formed core instruction decodes to itself; the other names of R114 are no core instructions. -/
theorem decodeWords_encode {i : Instr} (admitted : i.wf = true) (core : i.parent = i) :
    decodeWords (firstWord i) (secondWord i) = some i := by
  cases i with
  | add | adc | sub | sbc | and | or | eor | cpse | cp | cpc | mov =>
    simp [firstWord, encode, decodeWords, decode0, decode1, decode2, encRdRr_fields]
  | mul => exact decodeWords_mul _ _ _
  | subi | sbci | andi | ori | cpi | ldi =>
    simp [firstWord, encode, decodeWords, encRdK8_fields _ admitted]
  | com | neg | swap | inc | asr | lsr | ror | dec =>
    simp [firstWord, encode, decodeWords, decode9, decodeOne, encRd5_fields]
  | adiw | sbiw => simp [firstWord, encode, decodeWords, decode9, encRdpK6_fields _ admitted]
  | movw d r =>
    obtain ⟨hd, hr⟩ := Bool.and_eq_true_iff.mp admitted
    exact decodeWords_movw (by simpa [even] using hd) (by simpa [even] using hr) _
  | muls d r =>
    obtain ⟨hd, hr⟩ := Bool.and_eq_true_iff.mp admitted
    exact decodeWords_muls (by simpa [upper] using hd) (by simpa [upper] using hr) _
  | mulsu | fmul | fmuls | fmulsu =>
    obtain ⟨hd, hr⟩ := Bool.and_eq_true_iff.mp admitted
    simp [firstWord, encode, decodeWords, decode0, encRd3Rr3_fields _ _ hd hr]
  | des => simp [firstWord, encode, decodeWords, decode9, decodeOne, encK4_fields]
  | rjmp | rcall => simp [firstWord, encode, decodeWords, encK12_fields]
  | jmp k => exact (decodeWords_encK22 k).1
  | call k => exact (decodeWords_encK22 k).2
  | brbs | brbc => simp [firstWord, encode, decodeWords, decode15, encS3k7_fields]
  | bset | bclr => simp [firstWord, encode, decodeWords, decode9, decodeOne, encS3_fields]
  | sbrc | sbrs | bst | bld => simp [firstWord, encode, decodeWords, decode15, encRb_fields]
  | sbic | sbis | sbi | cbi => simp [firstWord, encode, decodeWords, decode9, encA5b_fields]
  | in_ | out => simp [firstWord, encode, decodeWords, encA6Rd_fields]
  | lds | ldX | ldXInc | ldXDec | ldYInc | ldYDec | ldZInc | ldZDec
  | lpmZ | lpmZInc | elpmZ | elpmZInc | pop =>
    simp [firstWord, secondWord, encode, decodeWords, decode9, decodeLoad, encLdSt_fields]
  | sts | stX | stXInc | stXDec | stYInc | stYDec | stZInc | stZDec | push =>
    simp [firstWord, secondWord, encode, decodeWords, decode9, decodeStore, encLdSt_fields]
  | lddY | lddZ | stdY | stdZ =>
    simp [firstWord, secondWord, encode, decodeWords_encLddStd, decodeDisp, encLddStd_fields]
  | ijmp | eijmp | icall | eicall | ret | reti | lpmR0 | elpmR0 | spm | spmZInc | brk | nop | sleep | wdr => decide
  | _ => cases core

/-! ### From words to bytes -/

/-- What `WordsAgree` says of each constructor holds of every instruction. -/
theorem wordsAgree (i : Instr) : Laws.WordsAgree.Statement i := by
  cases i <;> exact ⟨rfl, rfl, id⟩

theorem decode_oneWord {w : Word} {i : Instr} (one : isTwoWord w = false) (h : decodeWords w 0 = some i)
    (rest : List Byte) : decode (wordBytes w ++ rest) = .ok (i, rest) := by
  have word : (w >>> 8).setWidth 8 ++ w.setWidth 8 = w := Machine.high_append_low w
  simp [wordBytes, decode, word, one, ← BitVec.ofNat_eq_ofNat, h]

theorem decode_twoWords {w k : Word} {i : Instr} (two : isTwoWord w = true) (h : decodeWords w k = some i)
    (rest : List Byte) : decode (wordBytes w ++ wordBytes k ++ rest) = .ok (i, rest) := by
  have first : (w >>> 8).setWidth 8 ++ w.setWidth 8 = w := Machine.high_append_low w
  have second : (k >>> 8).setWidth 8 ++ k.setWidth 8 = k := Machine.high_append_low k
  simp [wordBytes, decode, first, second, two, h]

/-- R90, R91: `encode` gives as many words as the first of them asks for. -/
theorem encode_cases {i : Instr} (h : decodeWords (firstWord i) (secondWord i) = some i) :
    isTwoWord (firstWord i) = true ∧ encode i = [firstWord i, secondWord i] ∨
    isTwoWord (firstWord i) = false ∧ encode i = [firstWord i] ∧ secondWord i = 0 := by
  have length : (encode i).length = if isTwoWord (firstWord i) then 2 else 1 :=
    (wordsAgree i).1.trans (decodeWords_words h)
  split at length
  next two =>
    obtain ⟨w, k, words⟩ := List.length_eq_two.mp length
    exact .inl ⟨two, by simp [firstWord, secondWord, words]⟩
  next one =>
    obtain ⟨w, words⟩ := List.length_eq_one_iff.mp length
    exact .inr ⟨by simpa using one, by simp [firstWord, words], by simp [secondWord, words]⟩

theorem parent_parent (i : Instr) : i.parent.parent = i.parent := by
  cases i <;> rfl

/-- Settles O1: the words are those of the core instruction (R114), which decode to it (`decodeWords_encode`), and the
bytes are put together to the words again (R62). -/
theorem decodeEncode : Obligations.DecodeEncode := by
  intro i rest admitted
  obtain ⟨-, same, parentAdmitted⟩ := wordsAgree i
  have decoded := decodeWords_encode (parentAdmitted admitted) (parent_parent i)
  rw [encodeBytes, ← same]
  rcases encode_cases decoded with ⟨two, words⟩ | ⟨one, words, second⟩
  · rw [words]
    exact decode_twoWords two decoded rest
  · rw [words]
    exact decode_oneWord one (second ▸ decoded) rest

end Sys2Proof
end

section
/-! The data space, program memory and the I/O locations as single instructions reach them (R62, R77 to R80). -/

namespace Sys2Proof.Machine

variable {s : State}

/-! ### What stands at a data address -/

/-- The chain of R77 and R78 on propositions. -/
theorem placeOf_eq (c : Config) (a : Nat) : placeOf c a =
    if c.regsInDataSpace = true ∧ a ≤ 31 then .register (regOf a)
    else if c.ioBase ≤ a ∧ a ≤ c.ioBase + 63 then .io (a - c.ioBase)
    else if c.ioBase + 64 ≤ a ∧ a < c.sramStart then .extended
    else if c.sramStart ≤ a ∧ a ≤ c.ramEnd then .sram
    else .nothing := by
  simp [placeOf]

theorem reg_regOf {a : Nat} (h : a < 32) : s.reg (regOf a) = s.regs[a] := by
  simp only [State.reg, regOf, Nat.mod_eq_of_lt h]

theorem setReg_regOf {a : Nat} (h : a < 32) (v : Byte) :
    s.setReg (regOf a) v = { s with regs := s.regs.set a v } := by
  simp only [State.setReg, regOf, Nat.mod_eq_of_lt h]

/-- Settles O27: both accesses ask for the place at the address, which is the chain of tests. -/
theorem dataSpaceMap : Obligations.DataSpaceMap := by
  intro s a v
  rw [State.memRead, State.memWrite, placeOf_eq]
  split_ifs with inRegs
  · rw [← reg_regOf, ← setReg_regOf]
    exact ⟨rfl, rfl⟩
  all_goals exact ⟨rfl, rfl⟩

/-! ### Loads and stores that update no pointer -/

/-- A read leaves the address of every following instruction as it was. -/
theorem OnlyEnvRead.nextPc {t : State} (h : OnlyEnvRead s t) (n : Nat) : t.nextPc n = s.nextPc n := by
  rw [h]
  rfl

theorem BeyondWrites.nextPc {t : State} (h : BeyondWrites s t) (n : Nat) : t.nextPc n = s.nextPc n := by
  simp only [State.nextPc, h.cfg, h.pc]

theorem loadFrom_mapped {a : Nat} (h : s.mapped a) (d : Reg) (words : Nat) : ∃ v t, s.memRead a = .next (v, t) ∧
    s.loadFrom d a words = .next { t with regs := t.regs.set d v d.isLt, pc := s.nextPc words } := by
  obtain ⟨v, t, read⟩ := memRead_mapped h
  refine ⟨v, t, read, ?_⟩
  simp only [State.loadFrom, read, Res.andThen_next, advance_eq]
  rw [← (memRead_only read).nextPc]
  rfl

theorem loadFrom_unmapped {a : Nat} (h : ¬s.mapped a) (d : Reg) (words : Nat) :
    s.loadFrom d a words = .refused (.unmappedData a) := by
  rw [State.loadFrom, memRead_unmapped h, Res.andThen_refused]

/-- Settles O29: each of the six is `loadFrom` at its effective address. -/
theorem loadResult : Obligations.LoadResult := by
  intro s d q k
  have loads (a words : Nat) := And.intro (fun h : s.mapped a => loadFrom_mapped h d words)
    fun h : ¬s.mapped a => loadFrom_unmapped h d words
  exact ⟨loads _ 2, loads _ 1, loads _ 1, loads _ 1, loads _ 1, loads _ 1⟩

theorem storeTo_mapped {a : Nat} (h : s.mapped a) (v : Byte) (words : Nat) : ∃ t, s.memWrite a v = .next t ∧
    s.storeTo a v words = .next { t with pc := s.nextPc words } := by
  obtain ⟨t, written⟩ := memWrite_mapped h v
  refine ⟨t, written, ?_⟩
  rw [State.storeTo, written, Res.andThen_next, advance_eq, (memWrite_beyond written).nextPc]

theorem storeTo_unmapped {a : Nat} (h : ¬s.mapped a) (v : Byte) (words : Nat) :
    s.storeTo a v words = .refused (.unmappedData a) := by
  rw [State.storeTo, memWrite_unmapped h, Res.andThen_refused]

/-- Settles O31: each of the six is `storeTo` at its effective address. -/
theorem storeResult : Obligations.StoreResult := by
  intro s r q k
  have stores (a words : Nat) := And.intro (fun h : s.mapped a => storeTo_mapped h (s.reg r) words)
    fun h : ¬s.mapped a => storeTo_unmapped h (s.reg r) words
  exact ⟨stores _ 2, stores _ 1, stores _ 1, stores _ 1, stores _ 1, stores _ 1⟩

/-! ### LPM -/

theorem execLpmZInc_inside {d : Reg} (off : offPointer .z d = true) (h : (s.ptr .z).toNat / 2 ≤ s.cfg.flashEnd) :
    execLpmZInc d s = .next { (s.setReg d (s.flashAt (s.ptr .z).toNat)).setPair 30
      (BitVec.ofNat 16 ((s.ptr .z).toNat + 1)) with pc := s.nextPc 1 } := by
  have next : s.ptr .z + 1 = BitVec.ofNat 16 ((s.ptr .z).toNat + 1) := by
    rw [BitVec.ofNat_add, BitVec.ofNat_toNat, BitVec.setWidth_eq]
    rfl
  rw [execLpmZInc, offPointerOr_off off, progByte_inside h, Res.andThen_next, next, advance_eq]
  rfl

theorem execLpmZInc_outside {d : Reg} (off : offPointer .z d = true) (h : s.cfg.flashEnd < (s.ptr .z).toNat / 2) :
    execLpmZInc d s = .refused (.unmappedProgram ((s.ptr .z).toNat / 2)) := by
  rw [execLpmZInc, offPointerOr_off off, progByte_outside h, Res.andThen_refused]

/-- Settles O36: the three forms read the program byte at Z, whatever RAMPZ holds. -/
theorem lpmResult : Obligations.LpmResult := by
  intro s d
  exact ⟨fun inside =>
      ⟨loadProgram_inside inside 0, loadProgram_inside inside d, fun off => execLpmZInc_inside off inside⟩,
    fun outside =>
      ⟨loadProgram_outside outside 0, loadProgram_outside outside d, fun off => execLpmZInc_outside off outside⟩⟩

/-! ### IN, OUT, SBI and CBI -/

theorem ioWrite_beyond (s : State) (a : Nat) (v : Byte) : BeyondWrites s (s.ioWrite a v) := by
  unfold State.ioWrite
  split
  · exact writeCpu_beyond s _ v
  · exact ⟨rfl, rfl, rfl, rfl, rfl, rfl, rfl, rfl⟩

theorem in_eq (s : State) (r : Reg) (a : BitVec 6) : exec (.in_ r a) s = .next { (s.ioRead a.toNat).2 with
    regs := (s.ioRead a.toNat).2.regs.set r (s.ioRead a.toNat).1 r.isLt, pc := s.nextPc 1 } := by
  change Host.Outcome.next (((s.ioRead a.toNat).2.setReg r (s.ioRead a.toNat).1).advance 1) = _
  rw [advance_eq, ← (ioRead_only s a.toNat).nextPc]
  rfl

theorem out_eq (s : State) (r : Reg) (a : BitVec 6) :
    exec (.out a r) s = .next { s.ioWrite a.toNat (s.reg r) with pc := s.nextPc 1 } := by
  change Host.Outcome.next ((s.ioWrite a.toNat (s.reg r)).advance 1) = _
  rw [advance_eq, (ioWrite_beyond s a.toNat (s.reg r)).nextPc]

/-- A read of the environment takes the oldest queued answer. -/
theorem envRead_queued {v : Byte} {rest : List Byte} (h : s.ioInputs = v :: rest) (l : EnvLoc) :
    s.envRead l = (v, { s with ioInputs := rest, envTrace := .read l v :: s.envTrace }) := by
  simp only [State.envRead, h]

/-- Settles O39: IN and OUT are `ioRead` and `ioWrite`, and where no CPU register stands those are the environment's. -/
theorem inOutResult : Obligations.InOutResult := by
  intro s r a
  refine ⟨in_eq s r a, out_eq s r a, fun absent => ⟨out_environment absent r, fun v rest queued => ?_⟩⟩
  rw [in_environment absent, envRead_queued queued]

/-- The mask of `putBit` has the one bit. -/
theorem getLsbD_oneBit (b : BitVec 3) (m : Nat) : (1#8 <<< b.toNat).getLsbD m = decide (m = b.toNat) := by
  have low : b.toNat < 8 := b.isLt
  rw [← BitVec.twoPow_eq, BitVec.getLsbD_twoPow]
  simp [low, eq_comm]

/-- SBI and CBI where the device reads and writes the whole location. -/
theorem ioBitWrite_whole (h : s.cfg.ioBitReadModifyWrite = true) (a : Nat) (b : BitVec 3) (x : Bool) :
    (s.ioBitWrite a b x).advance 1 = { (s.envRead (.io a)).2 with
      envTrace := .write (.io a) (putBit (s.envRead (.io a)).1 b x) :: (s.envRead (.io a)).2.envTrace
      pc := s.nextPc 1 } := by
  rw [State.ioBitWrite, if_pos h, advance_eq, ← (envRead_only s (.io a)).nextPc]
  rfl

/-- SBI and CBI where the device writes the one bit. -/
theorem ioBitWrite_bit (h : s.cfg.ioBitReadModifyWrite = false) (a : Nat) (b : BitVec 3) (x : Bool) :
    (s.ioBitWrite a b x).advance 1 =
      { s with envTrace := .bitWrite (.io a) b x :: s.envTrace, pc := s.nextPc 1 } := by
  rw [State.ioBitWrite, if_neg (by simp [h]), advance_eq]
  rfl

/-- Settles O44: SBI and CBI are the bit write of the location, in the form the device has. -/
theorem ioBitResult : Obligations.IoBitResult := by
  intro s a b
  refine ⟨fun whole => ⟨_, 1#8 <<< b.toNat, _, rfl, getLsbD_oneBit b, ?_, ?_⟩, fun bit => ⟨?_, ?_⟩⟩
  · exact congrArg Host.Outcome.next (ioBitWrite_whole whole a.toNat b true)
  · exact congrArg Host.Outcome.next (ioBitWrite_whole whole a.toNat b false)
  · exact congrArg Host.Outcome.next (ioBitWrite_bit bit a.toNat b true)
  · exact congrArg Host.Outcome.next (ioBitWrite_bit bit a.toNat b false)

end Sys2Proof.Machine
end

section
/-! What an instruction leaves of the three memories: program memory and the device always, SRAM unless it is a store,
PUSH or a call (R68, R84). -/

namespace Sys2Proof.Machine

variable {s t u : State}

/-- `t` has the device and the program memory of `s`. -/
structure KeepsProgram (s t : State) : Prop where
  cfg : t.cfg = s.cfg
  flash : t.flash = s.flash

/-- `t` has the device and both memories of `s`. -/
structure KeepsMemory (s t : State) : Prop extends KeepsProgram s t where
  sram : t.sram = s.sram

theorem KeepsProgram.trans (h : KeepsProgram s t) (h' : KeepsProgram t u) : KeepsProgram s u :=
  ⟨h'.cfg.trans h.cfg, h'.flash.trans h.flash⟩

theorem KeepsMemory.trans (h : KeepsMemory s t) (h' : KeepsMemory t u) : KeepsMemory s u :=
  ⟨h.toKeepsProgram.trans h'.toKeepsProgram, h'.sram.trans h.sram⟩

theorem KeepsMemory.refl (s : State) : KeepsMemory s s := ⟨⟨rfl, rfl⟩, rfl⟩

/-- What most instructions write lies in neither memory. -/
theorem KeepsMemory.outside {regs : Vector Byte 32} {sreg : Byte} {irqHoldoff : Bool} {envTrace : List EnvEvent} :
    KeepsMemory s { s with regs, sreg, irqHoldoff, envTrace } := ⟨⟨rfl, rfl⟩, rfl⟩

/-- An operation on a state that keeps what `s` holds, where the operation keeps it too. -/
theorem KeepsMemory.andThen (h : KeepsMemory s t) {x : Res State} (hx : x.Gives (KeepsMemory t)) :
    x.Gives (KeepsMemory s) := fun u e => h.trans (hx u e)

/-! ### Operations that keep both memories -/

theorem OnlyEnvRead.keepsMemory (h : OnlyEnvRead s t) : KeepsMemory s t := by
  rw [h]
  exact ⟨⟨rfl, rfl⟩, rfl⟩

theorem KeepsMemory.advance (h : KeepsMemory s t) (n : Nat) : KeepsMemory s (t.advance n) :=
  h.trans ⟨⟨rfl, rfl⟩, rfl⟩

theorem setReg_keepsMemory (s : State) (d : Reg) (v : Byte) : KeepsMemory s (s.setReg d v) := ⟨⟨rfl, rfl⟩, rfl⟩

theorem setPtrAddr_keepsMemory (s : State) (p : Ptr) (n : Nat) : KeepsMemory s (s.setPtrAddr p n) := by
  have only := setPtrAddr_only s p n
  exact ⟨⟨(congrArg State.cfg only :), (congrArg State.flash only :)⟩, (congrArg State.sram only :)⟩

theorem writeCpu_keepsMemory (s : State) (r : CpuReg) (v : Byte) : KeepsMemory s (s.writeCpu r v) := by
  cases r <;> exact ⟨⟨rfl, rfl⟩, rfl⟩

theorem ioWrite_keepsMemory (s : State) (a : Nat) (v : Byte) : KeepsMemory s (s.ioWrite a v) := by
  unfold State.ioWrite
  split
  · exact writeCpu_keepsMemory s _ v
  · exact ⟨⟨rfl, rfl⟩, rfl⟩

theorem ioBitWrite_keepsMemory (s : State) (a : Nat) (b : BitVec 3) (x : Bool) :
    KeepsMemory s (s.ioBitWrite a b x) := by
  unfold State.ioBitWrite
  split
  · exact (envRead_only s _).keepsMemory.trans ⟨⟨rfl, rfl⟩, rfl⟩
  · exact ⟨⟨rfl, rfl⟩, rfl⟩

theorem memRead_keepsMemory (s : State) (a : Nat) : (s.memRead a).Gives fun x => KeepsMemory s x.2 :=
  fun _ e => (memRead_only e).keepsMemory

theorem pop8_keepsMemory (s : State) : s.pop8.Gives fun x => KeepsMemory s x.2 :=
  fun _ e => KeepsMemory.trans (t := s.setSp _) ⟨⟨rfl, rfl⟩, rfl⟩ (memRead_only e).keepsMemory

theorem popRet_keepsMemory (s : State) : s.popRet.Gives fun x => KeepsMemory s x.2 := by
  have high : s.popHigh.Gives fun x => KeepsMemory s x.2 := .ite (fun _ => pop8_keepsMemory s) fun _ => .next (.refl s)
  exact high.andThen fun _ h1 => (pop8_keepsMemory _).andThen fun _ h2 => (pop8_keepsMemory _).andThen fun _ h3 =>
    .next ((h1.trans h2).trans h3)

theorem returnToPopped_keepsMemory (s : State) : s.returnToPopped.Gives (KeepsMemory s) :=
  (popRet_keepsMemory s).andThen fun _ h => .next (h.trans ⟨⟨rfl, rfl⟩, rfl⟩)

theorem interruptReturn_keepsMemory (s : State) : s.interruptReturn.Gives (KeepsMemory s) :=
  (returnToPopped_keepsMemory s).andThen fun _ h => .next (h.trans ⟨⟨rfl, rfl⟩, rfl⟩)

theorem writeResult_keepsMemory (s : State) (d : Reg) (v sreg : Byte) :
    (s.writeResult d v sreg).Gives (KeepsMemory s) :=
  .next ⟨⟨rfl, rfl⟩, rfl⟩

theorem writePair_keepsMemory (s : State) (d : Reg) (v : Word) (sreg : Byte) :
    (s.writePair d v sreg).Gives (KeepsMemory s) :=
  .next ⟨⟨rfl, rfl⟩, rfl⟩

theorem compare_keepsMemory (s : State) (f : Alu) : (s.compare f).Gives (KeepsMemory s) := .next ⟨⟨rfl, rfl⟩, rfl⟩

theorem skip_keepsMemory (s : State) (cond : Bool) : (s.skip cond).Gives (KeepsMemory s) := by
  intro t e
  rw [skip_next e]
  exact ⟨⟨rfl, rfl⟩, rfl⟩

theorem branchIf_keepsMemory (s : State) (cond : Bool) (k : BitVec 7) : (s.branchIf cond k).Gives (KeepsMemory s) := by
  rw [branchIf_eq]
  exact .next ⟨⟨rfl, rfl⟩, rfl⟩

theorem loadFrom_keepsMemory (s : State) (d : Reg) (a words : Nat) : (s.loadFrom d a words).Gives (KeepsMemory s) :=
  (memRead_keepsMemory s a).andThen fun _ h => .next (h.trans ⟨⟨rfl, rfl⟩, rfl⟩)

theorem loadInc_keepsMemory (s : State) (p : Ptr) (d : Reg) : (s.loadInc p d).Gives (KeepsMemory s) :=
  (memRead_keepsMemory s _).andThen fun _ h => .next (((h.trans (setReg_keepsMemory _ d _)).trans
    (setPtrAddr_keepsMemory _ p _)).advance 1)

theorem loadDec_keepsMemory (s : State) (p : Ptr) (d : Reg) : (s.loadDec p d).Gives (KeepsMemory s) :=
  (setPtrAddr_keepsMemory s p _).andThen (loadFrom_keepsMemory _ d _ 1)

theorem loadProgram_keepsMemory (s : State) (d : Reg) (b : Nat) : (s.loadProgram d b).Gives (KeepsMemory s) :=
  progByte_andThen_gives fun _ => .next ⟨⟨rfl, rfl⟩, rfl⟩

/-! ### Operations that write the data space -/

theorem BeyondWrites.keepsProgram (h : BeyondWrites s t) : KeepsProgram s t := ⟨h.cfg, h.flash⟩

theorem storeTo_keepsProgram (s : State) (a : Nat) (v : Byte) (words : Nat) :
    (s.storeTo a v words).Gives (KeepsProgram s) :=
  Res.Gives.andThen (fun _ e => (memWrite_beyond e).keepsProgram) fun _ h => .next (h.trans ⟨rfl, rfl⟩)

theorem storeInc_keepsProgram (s : State) (p : Ptr) (r : Reg) : (s.storeInc p r).Gives (KeepsProgram s) :=
  Res.Gives.andThen (fun _ e => (memWrite_beyond e).keepsProgram) fun _ h =>
    .next ((h.trans (setPtrAddr_keepsMemory _ p _).toKeepsProgram).trans ⟨rfl, rfl⟩)

theorem storeDec_keepsProgram (s : State) (p : Ptr) (r : Reg) : (s.storeDec p r).Gives (KeepsProgram s) :=
  fun t e => (setPtrAddr_keepsMemory s p _).toKeepsProgram.trans (storeTo_keepsProgram _ _ _ 1 t e)

theorem callTo_keepsProgram (s : State) (words : Nat) (target : Int) : (s.callTo words target).Gives (KeepsProgram s) :=
  Res.Gives.andThen (fun _ e => (pushRet_beyond e).keepsProgram) fun _ h => .next (h.trans ⟨rfl, rfl⟩)

theorem interruptEntry_keepsProgram (s : State) (n : Nat) : (s.interruptEntry n).Gives (KeepsProgram s) :=
  Res.Gives.andThen (P := KeepsProgram s)
    (fun _ e => ⟨(pushRet_beyond e).cfg, (pushRet_beyond e).flash⟩) fun _ h => .next (h.trans ⟨rfl, rfl⟩)

/-! ### Instructions and steps -/

/-- R68: the instructions outside `writesData` write neither memory. -/
theorem exec_keepsMemory {i : Instr} (noWrite : writesData i = false) (s : State) :
    Res.Gives (exec i s) (KeepsMemory s) := by
  cases i with
  | add | adc | sub | subi | sbc | sbci | and | andi | or | ori | eor | com | neg | sbr | cbr | inc | dec
  | lsl | lsr | rol | ror | asr => exact writeResult_keepsMemory s _ _ _
  | adiw | sbiw | mul | muls | mulsu | fmul | fmuls | fmulsu => exact writePair_keepsMemory s _ _ _
  | cp | cpc | cpi => exact compare_keepsMemory s _
  | tst | clr | ser | des | mov | movw | ldi | swap | bset | bclr | bst | bld
  | sec | clc | sen | cln | sez | clz | sei | cli | ses | cls | sev | clv | set | clt | seh | clh
  | nop | wdr => exact .next (KeepsMemory.outside.advance 1)
  | sleep | rjmp | ijmp | eijmp | jmp => exact .next ⟨⟨rfl, rfl⟩, rfl⟩
  | brk => exact .ite (fun _ => .fault _) fun _ => .next (KeepsMemory.advance (.refl s) 1)
  | ret => exact returnToPopped_keepsMemory s
  | reti => exact interruptReturn_keepsMemory s
  | cpse | sbrc | sbrs => exact skip_keepsMemory s _
  | sbic | sbis => exact (ioRead_only s _).keepsMemory.andThen (skip_keepsMemory _ _)
  | brbs | brbc | breq | brne | brcs | brcc | brsh | brlo | brmi | brpl | brge | brlt | brhs | brhc | brts | brtc
  | brvs | brvc | brie | brid => exact branchIf_keepsMemory s _ _
  | lds | ldX | ldY | ldZ | lddY | lddZ => exact loadFrom_keepsMemory s _ _ _
  | ldXInc | ldYInc | ldZInc => exact offPointerOr_gives (loadInc_keepsMemory s _ _)
  | ldXDec | ldYDec | ldZDec => exact offPointerOr_gives (loadDec_keepsMemory s _ _)
  | lpmR0 | lpmZ | elpmR0 | elpmZ => exact loadProgram_keepsMemory s _ _
  | lpmZInc | elpmZInc => exact offPointerOr_gives (progByte_andThen_gives fun _ => .next ⟨⟨rfl, rfl⟩, rfl⟩)
  | spm | spmZInc => exact .refused _
  | in_ => exact .next ((ioRead_only s _).keepsMemory.trans ⟨⟨rfl, rfl⟩, rfl⟩)
  | out => exact .next ((ioWrite_keepsMemory s _ _).advance 1)
  | pop => exact (pop8_keepsMemory s).andThen fun _ h => .next (h.trans ⟨⟨rfl, rfl⟩, rfl⟩)
  | sbi | cbi => exact .next ((ioBitWrite_keepsMemory s _ _ _).advance 1)
  | _ => cases noWrite

/-- R84: no instruction at all writes program memory. -/
theorem exec_keepsProgram (i : Instr) (s : State) : Res.Gives (exec i s) (KeepsProgram s) := by
  cases noWrite : writesData i with
  | false => exact fun t e => (exec_keepsMemory noWrite s t e).toKeepsProgram
  | true =>
    cases i with
    | sts | stX | stY | stZ | stdY | stdZ => exact storeTo_keepsProgram s _ _ _
    | stXInc | stYInc | stZInc => exact offPointerOr_gives (storeInc_keepsProgram s _ _)
    | stXDec | stYDec | stZDec => exact offPointerOr_gives (storeDec_keepsProgram s _ _)
    | push => exact Res.Gives.andThen (fun _ e => (push8_beyond e).keepsProgram) fun _ h => .next (h.trans ⟨rfl, rfl⟩)
    | rcall | icall | eicall | call => exact callTo_keepsProgram s _ _
    | _ => cases noWrite

/-- Settles O60: such an instruction keeps the whole list of SRAM cells (`exec_keepsMemory`). -/
theorem onlyStoresWriteSram : Obligations.OnlyStoresWriteSram := by
  intro i s t noWrite done a
  rw [State.sramAt, State.sramAt, (exec_keepsMemory noWrite s t done).sram]

/-- Each way R325 gives a step keeps program memory. -/
theorem StepsTo.keepsProgram (h : StepsTo s t) : KeepsProgram s t := by
  cases h with
  | reset | asleep => exact ⟨rfl, rfl⟩
  | entry n entered => exact KeepsProgram.trans (t := s.pollEnv) ⟨rfl, rfl⟩ (interruptEntry_keepsProgram _ n t entered)
  | ran i _ done =>
    exact KeepsProgram.trans (t := { s.pollEnv with irqHoldoff := false }) ⟨rfl, rfl⟩ (exec_keepsProgram i _ t done)

/-- Settles O59: what a step can do (`StepsTo`), and of instructions `exec_keepsProgram`. -/
theorem programMemoryConstant : Obligations.ProgramMemoryConstant := by
  intro s t stepped
  have keeps := (stepsTo_of_step stepped).keepsProgram
  exact ⟨fun b => by rw [State.flashAt, State.flashAt, keeps.flash], keeps.flash, keeps.cfg⟩

end Sys2Proof.Machine
end

section
/-! The frames of loads and stores (R68, R77, R78, R120, R220): what they leave of the registers and the rest of the
state. -/

namespace Sys2Proof.Machine

variable {s t u : State} {regs ptrs : List Reg} {p : Ptr}

/-- `t` differs from `s` neither in a register outside `regs`, nor in the RAMP register of a pointer whose low half is
not one of `ptrs`, nor in a register that no load and no store to SRAM writes, nor in the interrupt state. -/
structure KeepsOthers (regs ptrs : List Reg) (s t : State) : Prop where
  reg : ∀ e, e ∉ regs → t.reg e = s.reg e
  ramp : ∀ p, Ptr.low p ∉ ptrs → t.rampOf p = s.rampOf p
  sreg : t.sreg = s.sreg
  sp : t.sp = s.sp
  eind : t.eind = s.eind
  rampd : t.rampd = s.rampd
  irqPending : t.irqPending = s.irqPending
  irqHoldoff : t.irqHoldoff = s.irqHoldoff
  sleeping : t.sleeping = s.sleeping

theorem KeepsOthers.trans (h : KeepsOthers regs ptrs s t) (h' : KeepsOthers regs ptrs t u) :
    KeepsOthers regs ptrs s u where
  reg e out := (h'.reg e out).trans (h.reg e out)
  ramp p out := (h'.ramp p out).trans (h.ramp p out)
  sreg := h'.sreg.trans h.sreg
  sp := h'.sp.trans h.sp
  eind := h'.eind.trans h.eind
  rampd := h'.rampd.trans h.rampd
  irqPending := h'.irqPending.trans h.irqPending
  irqHoldoff := h'.irqHoldoff.trans h.irqHoldoff
  sleeping := h'.sleeping.trans h.sleeping

/-- The frame does not speak of pc, SRAM and what the environment keeps. -/
theorem KeepsOthers.outside {pc : PAddr} {sram : Memory} {ioInputs : List Byte} {envDraws : Nat}
    {envTrace : List EnvEvent} :
    KeepsOthers regs ptrs s { s with pc, sram, ioInputs, envDraws, envTrace } :=
  ⟨fun _ _ => rfl, fun _ _ => rfl, rfl, rfl, rfl, rfl, rfl, rfl, rfl⟩

theorem OnlyEnvRead.keepsOthers (h : OnlyEnvRead s t) : KeepsOthers regs ptrs s t := by
  rw [h]
  exact .outside

theorem KeepsOthers.advance (h : KeepsOthers regs ptrs s t) (n : Nat) : KeepsOthers regs ptrs s (t.advance n) :=
  h.trans .outside

theorem KeepsOthers.setReg (h : KeepsOthers regs ptrs s t) {d : Reg} (inside : d ∈ regs) (v : Byte) :
    KeepsOthers regs ptrs s (t.setReg d v) :=
  h.trans ⟨fun _ out => reg_setReg_other t (ne_of_mem_of_not_mem inside out).symm v, fun _ _ => rfl, rfl, rfl, rfl, rfl,
    rfl, rfl, rfl⟩

/-- The registers of a pointer (R21). -/
def Ptr.halves (p : Ptr) : List Reg := [Ptr.low p, highOf (Ptr.low p)]

theorem KeepsOthers.setPtrAddr (h : KeepsOthers regs (Ptr.halves p) s t) (inside : Ptr.halves p ⊆ regs) (n : Nat) :
    KeepsOthers regs (Ptr.halves p) s (t.setPtrAddr p n) := by
  have only := setPtrAddr_only t p n
  have low : Ptr.low p ∈ Ptr.halves p := List.mem_cons_self
  have high : highOf (Ptr.low p) ∈ Ptr.halves p := List.mem_cons_of_mem _ List.mem_cons_self
  refine h.trans ⟨fun e out => ?_, fun q out => ?_, (congrArg State.sreg only :), (congrArg State.sp only :),
    (congrArg State.eind only :), (congrArg State.rampd only :), (congrArg State.irqPending only :),
    (congrArg State.irqHoldoff only :), (congrArg State.sleeping only :)⟩
  · exact reg_setPtrAddr_other (ne_of_mem_of_not_mem (inside low) out).symm
      (ne_of_mem_of_not_mem (inside high) out).symm n
  · exact rampOf_setPtrAddr_other (fun eq => out (by rw [eq]; exact low)) n

/-! ### Loads -/

theorem loadFrom_keepsOthers (s : State) (d : Reg) (a words : Nat) :
    (s.loadFrom d a words).Gives (KeepsOthers (d :: ptrs) ptrs s) :=
  Res.Gives.andThen (fun _ e => (memRead_only e).keepsOthers) fun _ h =>
    .next ((KeepsOthers.setReg h List.mem_cons_self _).advance words)

theorem loadInc_keepsOthers (s : State) (p : Ptr) (d : Reg) :
    (s.loadInc p d).Gives (KeepsOthers (d :: Ptr.halves p) (Ptr.halves p) s) :=
  Res.Gives.andThen (fun _ e => (memRead_only e).keepsOthers) fun _ h =>
    .next (((KeepsOthers.setReg h List.mem_cons_self _).setPtrAddr (List.subset_cons_self _ _) _).advance 1)

theorem loadDec_keepsOthers (s : State) (p : Ptr) (d : Reg) :
    (s.loadDec p d).Gives (KeepsOthers (d :: Ptr.halves p) (Ptr.halves p) s) := fun t e =>
  (KeepsOthers.setPtrAddr .outside (List.subset_cons_self _ _) _).trans (loadFrom_keepsOthers _ d _ 1 t e)

/-- Settles O35: the registers by what each form of load does, the memories because a load writes neither
(`exec_keepsMemory`). -/
theorem loadFrame : Obligations.LoadFrame := by
  intro s t d q k f form done
  have memory : KeepsMemory s t := by
    refine exec_keepsMemory ?_ s t done
    clear done
    revert f
    simp only [List.forall_mem_cons]
    exact ⟨rfl, rfl, rfl, rfl, rfl, rfl, rfl, rfl, rfl, rfl, rfl, rfl, nofun⟩
  have others : KeepsOthers (d :: f.2) f.2 s t := by
    clear memory
    have plain (a words : Nat) := loadFrom_keepsOthers (ptrs := []) s d a words t
    have inc (p : Ptr) (i : Instr) :=
      offPointerOr_gives (s := s) (p := p) (d := d) (i := i) (loadInc_keepsOthers s p d) t
    have dec (p : Ptr) (i : Instr) :=
      offPointerOr_gives (s := s) (p := p) (d := d) (i := i) (loadDec_keepsOthers s p d) t
    revert f
    simp only [List.forall_mem_cons]
    exact ⟨plain _ 2, plain _ 1, plain _ 1, plain _ 1, plain _ 1, plain _ 1, inc .x _, dec .x _, inc .y _, dec .y _,
      inc .z _, dec .z _, nofun⟩
  refine ⟨fun e other out => others.reg e (List.not_mem_cons_of_ne_of_not_mem other out), others.ramp, others.sreg,
    others.sp, others.eind, others.rampd, fun b => ?_, fun b => ?_, others.irqPending, others.irqHoldoff,
    others.sleeping, memory.cfg⟩
  · rw [State.sramAt, State.sramAt, memory.sram]
  · rw [State.flashAt, State.flashAt, memory.flash]

/-! ### Stores to SRAM -/

/-- `t` is `s` with the byte `v` in SRAM at `a`, but for pc, the registers `regs` and the RAMP register of a pointer
whose low half is one of them. -/
structure StoresByte (regs : List Reg) (a : Nat) (v : Byte) (s t : State) : Prop extends KeepsOthers regs regs s t where
  sram : t.sram = memPut sramBlank s.sram a v
  envTrace : t.envTrace = s.envTrace

theorem storeTo_storesByte {a : Nat} (place : placeOf s.cfg a = .sram) (v : Byte) (words : Nat) :
    (s.storeTo a v words).Gives (StoresByte regs a v s) := by
  rw [State.storeTo, memWrite_sram place]
  exact .next ⟨.outside, rfl, rfl⟩

theorem setPtrAddr_envTrace (s : State) (p : Ptr) (n : Nat) : (s.setPtrAddr p n).envTrace = s.envTrace :=
  (congrArg State.envTrace (setPtrAddr_only s p n) :)

theorem storeInc_storesByte (place : placeOf s.cfg (s.ptrAddr p) = .sram) (r : Reg) :
    (s.storeInc p r).Gives (StoresByte (Ptr.halves p) (s.ptrAddr p) (s.reg r) s) := by
  rw [State.storeInc, memWrite_sram place, Res.andThen_next]
  exact .next ⟨(KeepsOthers.setPtrAddr .outside (List.Subset.refl _) _).advance 1, (setPtrAddr_keepsMemory _ p _).sram,
    setPtrAddr_envTrace _ p _⟩

/-- The pointer written first changes neither what stands at the address nor the byte stored (R120). -/
theorem storeDec_storesByte (place : placeOf s.cfg (s.decAddr p) = .sram) (r : Reg) :
    (s.storeDec p r).Gives (StoresByte (Ptr.halves p) (s.decAddr p) (s.reg r) s) := by
  intro t e
  have memory := setPtrAddr_keepsMemory s p (s.decAddr p)
  have stored : StoresByte (Ptr.halves p) (s.decAddr p) (s.reg r) (s.setPtrAddr p (s.decAddr p)) t :=
    storeTo_storesByte (memory.cfg ▸ place) _ 1 t e
  exact ⟨(KeepsOthers.setPtrAddr .outside (List.Subset.refl _) _).trans stored.toKeepsOthers,
    stored.sram.trans (by rw [memory.sram]), stored.envTrace.trans (setPtrAddr_envTrace s p _)⟩

/-- Settles O34: what each form of store does to the state, then the bytes of SRAM by the memory laws, and program
memory by `exec_keepsProgram`. -/
theorem storeFrame : Obligations.StoreFrame := by
  intro s t r q k form f listed place done
  have program := exec_keepsProgram f.1 s t done
  have stored : StoresByte f.2.2 f.2.1 (s.reg r) s t := by
    clear program
    have plain (a words : Nat) (h : placeOf s.cfg a = .sram) :=
      storeTo_storesByte (regs := []) h (s.reg r) words t
    have inc (p : Ptr) (i : Instr) (h : placeOf s.cfg (s.ptrAddr p) = .sram) :=
      offPointerOr_gives (s := s) (p := p) (d := r) (i := i) (storeInc_storesByte h r) t
    have dec (p : Ptr) (i : Instr) (h : placeOf s.cfg (s.decAddr p) = .sram) :=
      offPointerOr_gives (s := s) (p := p) (d := r) (i := i) (storeDec_storesByte h r) t
    revert f
    simp only [List.forall_mem_cons]
    exact ⟨plain _ 2, plain _ 1, plain _ 1, plain _ 1, plain _ 1, plain _ 1, inc .x _, inc .y _, inc .z _, dec .x _,
      dec .y _, dec .z _, nofun⟩
  refine ⟨?_, fun b other => ?_, fun b => ?_, stored.reg, stored.ramp, stored.sreg, stored.sp, stored.eind,
    stored.rampd, stored.irqPending, stored.irqHoldoff, stored.sleeping, program.cfg, stored.envTrace⟩
  · rw [State.sramAt, stored.sram, memGet_memPut_same form]
  · rw [State.sramAt, stored.sram, memGet_memPut_other other, State.sramAt]
  · rw [State.flashAt, State.flashAt, program.flash]

end Sys2Proof.Machine
end

section
/-! Return addresses on a stack in SRAM (R64, R172, R173): what calls, returns and interrupt entries push and pop. -/

namespace Sys2Proof.Machine

variable {s : State}

/-! ### Pushing several bytes -/

/-- A push of each byte, the first of the list first. -/
def pushBytes : List Byte → State → Res State
  | [], s => .next s
  | v :: rest, s => (s.push8 v).andThen (pushBytes rest)

/-- `m` is the SRAM of `s` with the bytes of `l` from SP down. -/
structure Stacked (s : State) (l : List Byte) (m : Memory) : Prop where
  form : Memory.wf sramBlank m
  bytes : ∀ j v, l[j]? = some v → memGet sramBlank m (s.sp.toNat - j) = v
  others : ∀ b, b + l.length ≤ s.sp.toNat ∨ s.sp.toNat < b → memGet sramBlank m b = s.sramAt b

theorem toNat_ofNat_sp {n : Nat} (h : n ≤ s.sp.toNat) : (BitVec.ofNat 16 n).toNat = n := by
  have width := s.sp.isLt
  rw [BitVec.toNat_ofNat, Nat.mod_eq_of_lt (by omega)]

theorem roomBelow_of_le {m n : Nat} (h : s.roomBelow n) (le : m ≤ n) : s.roomBelow m := by
  obtain ⟨sound, width, low, high⟩ := h
  exact ⟨sound, width, by omega, high⟩

/-- SRAM begins above the I/O space, so SP is not 0 where there is room for a byte. -/
theorem sp_pos_of_roomBelow (h : s.roomBelow 1) : 1 ≤ s.sp.toNat := by
  obtain ⟨⟨-, -, -, -, io, gap, -⟩, -, low, -⟩ := h
  omega

/-- A byte pushed leaves room for one byte less. -/
theorem roomBelow_pushed {n : Nat} (h : s.roomBelow (n + 1)) (m : Memory) :
    State.roomBelow { s with sram := m, sp := BitVec.ofNat 16 (s.sp.toNat - 1) } n := by
  have pos := sp_pos_of_roomBelow (roomBelow_of_le h (by omega))
  obtain ⟨sound, width, low, high⟩ := h
  have lower : (BitVec.ofNat 16 (s.sp.toNat - 1)).toNat = s.sp.toNat - 1 := toNat_ofNat_sp (Nat.sub_le _ _)
  simp only [State.roomBelow, lower]
  exact ⟨sound, by omega, by omega, by omega⟩

/-- With room for its bytes a push of several answers the state with the bytes on the stack and SP lower by their
number. -/
theorem pushBytes_sram (l : List Byte) (s : State) (room : s.roomBelow l.length) (form : Memory.wf sramBlank s.sram) :
    ∃ m, pushBytes l s = .next { s with sram := m, sp := BitVec.ofNat 16 (s.sp.toNat - l.length) } ∧ Stacked s l m := by
  induction l generalizing s with
  | nil =>
    refine ⟨s.sram, ?_, form, nofun, fun _ _ => rfl⟩
    simp [pushBytes]
  | cons v rest ih =>
    have one : s.roomBelow 1 := roomBelow_of_le room (by simp)
    have pos := sp_pos_of_roomBelow one
    have lower : (BitVec.ofNat 16 (s.sp.toNat - 1)).toNat = s.sp.toNat - 1 := toNat_ofNat_sp (Nat.sub_le _ _)
    obtain ⟨m, rested, stacked⟩ := ih { s with
      sram := memPut sramBlank s.sram s.sp.toNat v, sp := BitVec.ofNat 16 (s.sp.toNat - 1) }
      (roomBelow_pushed room _) (memPut_wf form)
    obtain ⟨form', bytes, others⟩ := stacked
    simp only [lower, State.sramAt] at rested bytes others
    refine ⟨m, ?_, form', fun j w at_j => ?_, fun b outside => ?_⟩
    · rw [pushBytes, push8_sram one, Res.andThen_next, rested, Nat.sub_sub, Nat.add_comm 1, List.length_cons]
    · cases j with
      | zero =>
        obtain rfl : v = w := by simpa using at_j
        rw [Nat.sub_zero, others _ (.inr (by omega)), memGet_memPut_same form]
      | succ j => rw [Nat.add_comm, ← Nat.sub_sub, bytes j w (by simpa using at_j)]
    · rw [List.length_cons] at outside
      rw [others b (by omega), memGet_memPut_other (by omega), State.sramAt]

/-! ### The return address -/

/-- The bytes of a return address, the least significant first (R64, R172). -/
def returnBytes (c : Config) (a : PAddr) : List Byte :=
  (List.range (retBytes c)).map fun j => (a >>> (8 * j)).setWidth 8

theorem returnBytes_length (c : Config) (a : PAddr) : (returnBytes c a).length = retBytes c := by
  rw [returnBytes, List.length_map, List.length_range]

theorem retBytes_cases (c : Config) : retBytes c = 2 ∨ retBytes c = 3 := by
  unfold retBytes
  split
  · exact .inl rfl
  · exact .inr rfl

theorem pushRet_eq (s : State) (a : PAddr) : s.pushRet a = pushBytes (returnBytes s.cfg a) s := by
  have last (x : Res State) : x.andThen .next = x := by cases x <;> rfl
  rcases retBytes_cases s.cfg with size | size <;>
    simp [State.pushRet, returnBytes, size, List.range, List.range.loop, pushBytes, last]

/-- Byte `j` of an address as a number. -/
theorem shiftByte_toNat (a : PAddr) (j : Nat) : ((a >>> (8 * j)).setWidth 8).toNat = a.toNat / 256 ^ j % 256 := by
  rw [BitVec.toNat_setWidth, BitVec.toNat_ushiftRight, Nat.shiftRight_eq_div_pow, pow_mul]
  rfl

/-- `m` is the SRAM of `s` with the return address `a` pushed, and nothing else changed. -/
structure ReturnStacked (s : State) (a : PAddr) (m : Memory) : Prop where
  bytes : ∀ j < retBytes s.cfg, (memGet sramBlank m (s.sp.toNat - j)).toNat = a.toNat / 256 ^ j % 256
  others : ∀ b, (b + retBytes s.cfg ≤ s.sp.toNat ∨ s.sp.toNat < b) → memGet sramBlank m b = s.sramAt b

theorem pushRet_sram (room : s.roomBelow (retBytes s.cfg)) (form : Memory.wf sramBlank s.sram) (a : PAddr) :
    ∃ m, s.pushRet a = .next { s with sram := m, sp := BitVec.ofNat 16 (s.sp.toNat - retBytes s.cfg) } ∧
      ReturnStacked s a m := by
  have length := returnBytes_length s.cfg a
  obtain ⟨m, pushed, -, bytes, others⟩ := pushBytes_sram (returnBytes s.cfg a) s (length.symm ▸ room) form
  rw [length] at pushed others
  refine ⟨m, by rw [pushRet_eq, pushed], fun j small => ?_, others⟩
  rw [← shiftByte_toNat, bytes j ((a >>> (8 * j)).setWidth 8) (by simp [returnBytes, small])]

/-! ### Calls -/

theorem callTo_sram (room : s.roomBelow (retBytes s.cfg)) (form : Memory.wf sramBlank s.sram) (words : Nat)
    (target : Int) : ∃ m, s.callTo words target = .next { s with
        sram := m, sp := BitVec.ofNat 16 (s.sp.toNat - retBytes s.cfg), pc := pcAt s.cfg target } ∧
      ReturnStacked s (s.nextPc words) m := by
  obtain ⟨m, pushed, stacked⟩ := pushRet_sram room form (s.nextPc words)
  refine ⟨m, ?_, stacked⟩
  rw [State.callTo, wrapPc_eq, ← State.nextPc, pushed, Res.andThen_next, jump_eq]

/-- Z is R31:R30 (R21). -/
theorem ptr_z_toNat (s : State) : (s.ptr .z).toNat = (s.reg 31).toNat * 256 + (s.reg 30).toNat :=
  append_toNat (s.reg 31) (s.reg 30)

/-- Settles O20: each call is `callTo` its target. -/
theorem callsPushReturnAddress : Obligations.CallsPushReturnAddress := by
  intro s k a room form calls
  have called (i : Instr) (target : Int) (h : exec i s = s.callTo i.words target) : calls i (pcAt s.cfg target) := by
    obtain ⟨m, done, stacked⟩ := callTo_sram room form i.words target
    exact ⟨m, h.trans done, stacked.bytes, stacked.others⟩
  refine ⟨called _ _ rfl, called _ _ ?_, called _ _ ?_, called _ _ rfl⟩
  · exact congrArg (s.callTo 1) (by rw [ptr_z_toNat]; push_cast; rfl)
  · exact congrArg (s.callTo 1) (by rw [State.eindZ, ptr_z_toNat]; push_cast; ring)

/-! ### Returns -/

theorem append_byte_toNat {w : Nat} (x : BitVec w) (b : Byte) : (x ++ b).toNat = x.toNat * 256 + b.toNat := by
  rw [BitVec.toNat_append, ← Nat.shiftLeft_add_eq_or_of_lt b.isLt, Nat.shiftLeft_eq]

/-- One more pop where `k` bytes have been popped from a stack in SRAM. -/
theorem pop8_above {k : Nat} (h : s.bytesAbove (k + 1)) :
    State.pop8 { s with sp := BitVec.ofNat 16 (s.sp.toNat + k) } =
      .next (s.sramAt (s.sp.toNat + (k + 1)), { s with sp := BitVec.ofNat 16 (s.sp.toNat + (k + 1)) }) := by
  obtain ⟨sound, width, low, high⟩ := h
  have w16 : (2 : Nat) ^ s.cfg.spBits ≤ 2 ^ 16 := Nat.pow_le_pow_right (by decide) sound.2.2.2.1
  have value : (BitVec.ofNat 16 (s.sp.toNat + k)).toNat = s.sp.toNat + k := by
    rw [BitVec.toNat_ofNat, Nat.mod_eq_of_lt (by omega)]
  have above : State.bytesAbove { s with sp := BitVec.ofNat 16 (s.sp.toNat + k) } 1 := by
    simp only [State.bytesAbove, value]
    exact ⟨sound, by omega, by omega, by omega⟩
  rw [pop8_sram above]
  simp only [value, Nat.add_assoc, State.sramAt]

theorem bytesAbove_of_le {m n : Nat} (h : s.bytesAbove n) (le : m ≤ n) : s.bytesAbove m := by
  obtain ⟨sound, width, low, high⟩ := h
  exact ⟨sound, by omega, low, by omega⟩

/-- Where the bytes above SP are those of a number, the least significant highest, the number is what is popped. -/
theorem popRet_sram (above : s.bytesAbove (retBytes s.cfg)) {v : Nat} (small : v < 256 ^ retBytes s.cfg)
    (bytes : ∀ j < retBytes s.cfg, (s.sramAt (s.sp.toNat + (retBytes s.cfg - j))).toNat = v / 256 ^ j % 256) :
    ∃ a : BitVec 24, a.toNat = v ∧
      s.popRet = .next (a, { s with sp := BitVec.ofNat 16 (s.sp.toNat + retBytes s.cfg) }) := by
  have first : s.pop8 = .next (s.sramAt (s.sp.toNat + 1), { s with sp := BitVec.ofNat 16 (s.sp.toNat + 1) }) :=
    pop8_sram (bytesAbove_of_le above (by rcases retBytes_cases s.cfg with size | size <;> omega))
  rcases retBytes_cases s.cfg with size | size
  · rw [size] at above small bytes
    have second := pop8_above (k := 1) above
    have b0 := bytes 0 (by decide)
    have b1 := bytes 1 (by decide)
    refine ⟨(0 : Byte) ++ s.sramAt (s.sp.toNat + 1) ++ s.sramAt (s.sp.toNat + 2), ?_, ?_⟩
    · rw [append_byte_toNat, append_byte_toNat, b0, b1, show (0 : Byte).toNat = 0 from rfl]
      omega
    · simp [State.popRet, State.popHigh, size, first, second]
  · rw [size] at above small bytes
    have second := pop8_above (k := 1) (bytesAbove_of_le above (by decide))
    have third := pop8_above (k := 2) above
    have b0 := bytes 0 (by decide)
    have b1 := bytes 1 (by decide)
    have b2 := bytes 2 (by decide)
    refine ⟨s.sramAt (s.sp.toNat + 1) ++ s.sramAt (s.sp.toNat + 2) ++ s.sramAt (s.sp.toNat + 3), ?_, ?_⟩
    · rw [append_byte_toNat, append_byte_toNat, b0, b1, b2]
      omega
    · simp [State.popRet, State.popHigh, size, first, second, third]

/-- A number within the width of pc is not changed by wrapping (R24). -/
theorem pcAt_toNat {c : Config} {a : PAddr} (h : a.toNat < 2 ^ c.pcBits) : pcAt c a.toNat = a := by
  rw [pcAt, Int.emod_eq_of_lt (by omega) (by exact_mod_cast h)]
  simp

/-- The return address has room for every word address of the device (R5, R172). -/
theorem pcBits_fit {c : Config} (h : Config.sound c) : 2 ^ c.pcBits ≤ 256 ^ retBytes c := by
  rcases h.1 with bits | bits <;> simp [retBytes, bits]

/-- What was pushed is what is popped, and SP comes back to where it was. -/
theorem popRet_pushed {a : PAddr} {m : Memory} (room : s.roomBelow (retBytes s.cfg)) (stacked : ReturnStacked s a m)
    (fits : a.toNat < 2 ^ s.cfg.pcBits) (pc : PAddr) : ∃ v : BitVec 24, v.toNat = a.toNat ∧
      State.popRet { s with sram := m, sp := BitVec.ofNat 16 (s.sp.toNat - retBytes s.cfg), pc } =
        .next (v, { s with sram := m, pc }) := by
  obtain ⟨sound, width, low, high⟩ := room
  have below : retBytes s.cfg ≤ s.sp.toNat := by obtain ⟨-, -, -, -, io, gap, -⟩ := sound; omega
  have lower : (BitVec.ofNat 16 (s.sp.toNat - retBytes s.cfg)).toNat = s.sp.toNat - retBytes s.cfg :=
    toNat_ofNat_sp (Nat.sub_le _ _)
  have back : BitVec.ofNat 16 (s.sp.toNat - retBytes s.cfg + retBytes s.cfg) = s.sp := by
    rw [Nat.sub_add_cancel below, BitVec.ofNat_toNat, BitVec.setWidth_eq]
  have popped := popRet_sram
    (s := { s with sram := m, sp := BitVec.ofNat 16 (s.sp.toNat - retBytes s.cfg), pc }) (v := a.toNat)
  simp only [State.bytesAbove, State.sramAt, lower, back] at popped
  refine popped ⟨sound, by omega, by omega, by omega⟩ (fits.trans_le (pcBits_fit sound)) fun j small => ?_
  rw [← stacked.bytes j small, show s.sp.toNat - retBytes s.cfg + (retBytes s.cfg - j) = s.sp.toNat - j by omega]

/-- Settles O23: what the CALL pushes is what the RET pops. -/
theorem returnUndoesCall : Obligations.ReturnUndoesCall := by
  intro s a room form
  have fits : (s.nextPc 2).toNat < 2 ^ s.cfg.pcBits := pcAt_lt room.1 _
  obtain ⟨m, called, stacked⟩ := callTo_sram room form 2 a.toNat
  obtain ⟨v, value, popped⟩ := popRet_pushed room stacked fits (pcAt s.cfg a.toNat)
  refine ⟨_, _, called, ?_, rfl⟩
  change State.returnToPopped _ = _
  rw [State.returnToPopped, popped, Res.andThen_next]
  simp only [jump_eq, value, pcAt_toNat fits]

/-! ### Interrupt entry -/

/-- An accepted request is pending after the environment's inputs, so the run has not ended. -/
theorem asleepForever_of_accepted {n : Nat} (h : s.pollEnv.accepted = some n) : s.asleepForever = false := by
  unfold State.accepted at h
  split at h
  next enabled =>
    have raised : s.flag .i = true := by
      simp only [Bool.and_eq_true] at enabled
      exact enabled.1
    have pending : n ∈ s.pollEnv.irqPending := List.mem_of_head? h
    unfold State.asleepForever
    cases queue : s.envTicks with
    | cons => simp
    | nil =>
      obtain ⟨old | ⟨poll, -⟩, -⟩ := mem_pollEnv_irqPending.mp pending
      · have nonempty : s.irqPending.isEmpty = false := by simpa using List.ne_nil_of_mem old
        simp [raised, nonempty]
      · simp [State.tick, queue, EnvTick.quiet] at poll
  · cases h

/-- R325: an accepted request is entered. -/
theorem step_eq_entry {n : Nat} (noReset : s.tick.resetRequest = false) (h : s.pollEnv.accepted = some n) :
    step s = s.pollEnv.interruptEntry n := by
  simp [step, asleepForever_of_accepted h, noReset, h]

/-- I alone is cleared (R25). -/
theorem putFlag_i_false (x : Byte) : putFlag x .i false = x &&& 0x7F := rfl

/-- R327: where the push of pc answers, the entry clears I and goes to the vector. -/
theorem interruptEntry_pushed {n : Nat} {t : State}
    (h : State.pushRet { s with irqPending := s.irqPending.filter (· ≠ n), sleeping := false } s.pc = .next t) :
    s.interruptEntry n = .next { t with sreg := t.sreg &&& 0x7F, pc := pcAt s.cfg (n * s.cfg.vectorStride) } := by
  have device : t.cfg = s.cfg := (pushRet_beyond h).cfg
  rw [State.interruptEntry, h, Res.andThen_next, jump_eq, setFlag_cfg, device, State.setFlag, putFlag_i_false]
  push_cast
  rfl

/-- Settles O50: the step enters the handler (`step_eq_entry`), and on a stack in SRAM the push of pc is
`pushRet_sram`. -/
theorem interruptEntry : Obligations.InterruptEntry := by
  intro s n noReset accepted woken
  have enters {t : State} (pushed : woken.pushRet s.pc = .next t) :
      step s = .next { t with sreg := t.sreg &&& 0x7F, pc := pcAt s.cfg (n * s.cfg.vectorStride) } :=
    (step_eq_entry noReset accepted).trans (interruptEntry_pushed pushed)
  refine ⟨fun t => enters, fun room form _ => ?_⟩
  obtain ⟨m, pushed, stacked⟩ := pushRet_sram (s := woken) room form s.pc
  exact ⟨m, enters pushed, stacked.bytes, stacked.others⟩

end Sys2Proof.Machine
end

section
/-! The encoder on what the decoder reads (R90 to R114): each format written from the fields of a word gives the word
back, so every decoded instruction has the words it was decoded from. -/

namespace Sys2Proof

variable {w k : Word} {i : Instr}

/-! ### A word as its fields -/

theorem fld_lt (w : Word) (lo len : Nat) : fld w lo len < 2 ^ len := Nat.mod_lt _ (Nat.two_pow_pos len)

theorem fld_oneBit (w : Word) (lo : Nat) : fld w lo 1 = 0 ∨ fld w lo 1 = 1 := Nat.mod_two_eq_zero_or_one _

theorem fld_twoBits (w : Word) (lo : Nat) : fld w lo 2 = 0 ∨ fld w lo 2 = 1 ∨ fld w lo 2 = 2 ∨ fld w lo 2 = 3 := by
  have small := fld_lt w lo 2
  omega

theorem fld_add (w : Word) (lo a b : Nat) : fld w lo (a + b) = fld w lo a + 2 ^ a * fld w (lo + a) b := by
  rw [fld, pow_add, Nat.mod_mul, Nat.div_div_eq_div_mul, ← pow_add]
  rfl

/-- The number that the fields of the given widths make, the first of them at bit `lo`. -/
def joinFields (w : Word) (lo : Nat) : List Nat → Nat
  | [] => 0
  | len :: rest => fld w lo len + 2 ^ len * joinFields w (lo + len) rest

theorem joinFields_eq (w : Word) (lo : Nat) (lens : List Nat) : joinFields w lo lens = fld w lo lens.sum := by
  induction lens generalizing lo with
  | nil => simp [joinFields, fld, Nat.mod_one]
  | cons len rest ih => rw [joinFields, ih, List.sum_cons, fld_add]

/-- R92: a word is the fields it is cut into, whatever the widths, the lowest first. -/
theorem toNat_eq_joinFields (w : Word) {lens : List Nat} (whole : lens.sum = 16) : w.toNat = joinFields w 0 lens := by
  rw [joinFields_eq, whole, fld, pow_zero, Nat.div_one, Nat.mod_eq_of_lt w.isLt]

/-- A format gives a word where it gives the number of the word's fields. -/
theorem ofNat_eq_of_fields {n : Nat} (lens : List Nat) (h : n = joinFields w 0 lens) (whole : lens.sum = 16 := by rfl) :
    BitVec.ofNat 16 n = w :=
  ofNat_eq_of_toNat (h.trans (toNat_eq_joinFields w whole).symm)

/-! ### The numbers of the operands read from a word -/

theorem regOf_val {n : Nat} (h : n < 32) : (regOf n).val = n := Nat.mod_eq_of_lt h

theorem fieldD5_val (w : Word) : (fieldD5 w).val = fld w 4 5 := regOf_val (fld_lt w 4 5)

theorem fieldR5_val (w : Word) : (fieldR5 w).val = fld w 9 1 * 16 + fld w 0 4 := by
  have high := fld_lt w 9 1
  have low := fld_lt w 0 4
  exact regOf_val (by omega)

theorem fieldUpper_val (w : Word) : (fieldUpper w).val = 16 + fld w 4 4 := by
  have field := fld_lt w 4 4
  exact regOf_val (by omega)

theorem fieldPair_val (w : Word) : (fieldPair w).val = 24 + 2 * fld w 4 2 := by
  have field := fld_lt w 4 2
  exact regOf_val (by omega)

theorem fieldK8_toNat (w : Word) : (fieldK8 w).toNat = fld w 8 4 * 16 + fld w 0 4 := by
  have high := fld_lt w 8 4
  have low := fld_lt w 0 4
  exact Nat.mod_eq_of_lt (by omega)

theorem fieldK6_toNat (w : Word) : (fieldK6 w).toNat = fld w 6 2 * 16 + fld w 0 4 := by
  have high := fld_lt w 6 2
  have low := fld_lt w 0 4
  exact Nat.mod_eq_of_lt (by omega)

theorem fieldQ_toNat (w : Word) : (fieldQ w).toNat = fld w 13 1 * 32 + fld w 10 2 * 8 + fld w 0 3 := by
  have high := fld_lt w 13 1
  have middle := fld_lt w 10 2
  have low := fld_lt w 0 3
  exact Nat.mod_eq_of_lt (by omega)

theorem fieldA6_toNat (w : Word) : (fieldA6 w).toNat = fld w 9 2 * 16 + fld w 0 4 := by
  have high := fld_lt w 9 2
  have low := fld_lt w 0 4
  exact Nat.mod_eq_of_lt (by omega)

theorem fieldK22_toNat (w k : Word) : (fieldK22 w k).toNat = (fld w 4 5 * 2 + fld w 0 1) * 65536 + k.toNat := by
  have high := fld_lt w 4 5
  have low := fld_lt w 0 1
  have second := k.isLt
  exact Nat.mod_eq_of_lt (by omega)

/-- An operand that is one field of the word. -/
theorem ofNat_fld_toNat (w : Word) (lo len : Nat) : (BitVec.ofNat len (fld w lo len)).toNat = fld w lo len :=
  Nat.mod_eq_of_lt (fld_lt w lo len)

/-! ### Each format written from the fields of a word -/

section
variable {op : Nat}

/-- R93. -/
theorem encRdRr_of_fields (top : fld w 12 4 = op / 4) (sub : fld w 10 2 = op % 4) :
    encRdRr op (fieldD5 w) (fieldR5 w) = w := by
  have low := fld_lt w 0 4
  refine ofNat_eq_of_fields [4, 5, 1, 2, 4] ?_
  simp only [joinFields, fieldD5_val, fieldR5_val, Nat.reduceAdd]
  omega

/-- R94. -/
theorem encRdK8_of_fields (top : fld w 12 4 = op) : encRdK8 op (fieldUpper w) (fieldK8 w) = w := by
  have low := fld_lt w 0 4
  refine ofNat_eq_of_fields [4, 4, 4, 4] ?_
  simp only [joinFields, fieldUpper_val, fieldK8_toNat, Nat.reduceAdd]
  omega

/-- R95. -/
theorem encRd5_of_fields (top : fld w 12 4 = 9) (group : fld w 9 3 = 2) (low : fld w 0 4 = op) :
    encRd5 op (fieldD5 w) = w := by
  refine ofNat_eq_of_fields [4, 5, 3, 4] ?_
  simp only [joinFields, fieldD5_val, Nat.reduceAdd]
  omega

/-- R96. -/
theorem encRdpK6_of_fields (top : fld w 12 4 = 9) (group : fld w 9 3 = 3) (bit : fld w 8 1 = op) :
    encRdpK6 op (fieldPair w) (fieldK6 w) = w := by
  have low := fld_lt w 0 4
  refine ofNat_eq_of_fields [4, 2, 2, 1, 3, 4] ?_
  simp only [joinFields, fieldPair_val, fieldK6_toNat, Nat.reduceAdd]
  omega

/-- R97. -/
theorem encRd4Rr4_of_fields (top : fld w 12 4 = 0) (group : fld w 10 2 = 0) (sub : fld w 8 2 = op) :
    encRd4Rr4 op (fld w 4 4) (fld w 0 4) = w := by
  refine ofNat_eq_of_fields [4, 4, 2, 2, 4] ?_
  simp only [joinFields, Nat.reduceAdd]
  omega

/-- R98. -/
theorem encRd3Rr3_of_fields {x y : Nat} (top : fld w 12 4 = 0) (group : fld w 10 2 = 0) (sub : fld w 8 2 = 3)
    (hx : fld w 7 1 = x) (hy : fld w 3 1 = y) :
    encRd3Rr3 x y (regOf (16 + fld w 4 3)) (regOf (16 + fld w 0 3)) = w := by
  have first := fld_lt w 4 3
  have second := fld_lt w 0 3
  refine ofNat_eq_of_fields [3, 1, 3, 1, 2, 2, 4] ?_
  rw [regOf_val (by omega), regOf_val (by omega)]
  simp only [joinFields, Nat.reduceAdd]
  omega

/-- R99. -/
theorem encK4_of_fields (top : fld w 12 4 = 9) (group : fld w 9 3 = 2) (low : fld w 0 4 = 11) (bit : fld w 8 1 = 0) :
    encK4 (BitVec.ofNat 4 (fld w 4 4)) = w := by
  refine ofNat_eq_of_fields [4, 4, 1, 3, 4] ?_
  simp only [joinFields, ofNat_fld_toNat, Nat.reduceAdd]
  omega

/-- R100. -/
theorem encK12_of_fields (top : fld w 12 4 = 12 + op) : encK12 op (fieldK12 w) = w := by
  refine ofNat_eq_of_fields [12, 4] ?_
  simp only [joinFields, fieldK12, ofNat_fld_toNat, Nat.reduceAdd]
  omega

/-- R101. Bit 0 of the first word is part of the address, so two values of the low bits belong to each of the two. -/
theorem encK22_of_fields (top : fld w 12 4 = 9) (group : fld w 9 3 = 2) (low : fld w 0 4 = 12 + 2 * op + fld w 0 1) :
    encK22 op (fieldK22 w k) = w := by
  have lowest := fld_lt w 0 1
  have second := k.isLt
  refine ofNat_eq_of_fields [4, 5, 3, 4] ?_
  simp only [joinFields, fieldK22_toNat, Nat.reduceAdd]
  omega

theorem lowWord_fieldK22 (w k : Word) : lowWord (fieldK22 w k) = k := by
  apply BitVec.eq_of_toNat_eq
  rw [lowWord, BitVec.toNat_ofNat, fieldK22_toNat, Nat.mul_add_mod_self_right, Nat.mod_eq_of_lt k.isLt]

/-- R102. -/
theorem encS3k7_of_fields (top : fld w 12 4 = 15) (sub : fld w 10 2 = op) :
    encS3k7 op (fieldLow3 w) (fieldK7 w) = w := by
  refine ofNat_eq_of_fields [3, 7, 2, 4] ?_
  simp only [joinFields, fieldLow3, fieldK7, ofNat_fld_toNat, Nat.reduceAdd]
  omega

/-- R103. -/
theorem encS3_of_fields (top : fld w 12 4 = 9) (group : fld w 9 3 = 2) (low : fld w 0 4 = 8) (bit : fld w 8 1 = 0)
    (clear : fld w 7 1 = op) : encS3 op (fieldS3 w) = w := by
  refine ofNat_eq_of_fields [4, 3, 1, 1, 3, 4] ?_
  simp only [joinFields, fieldS3, ofNat_fld_toNat, Nat.reduceAdd]
  omega

/-- R104. -/
theorem encRb_of_fields (top : fld w 12 4 = 15) (sub : fld w 10 2 = 2 + op / 2) (low : fld w 3 1 = 0)
    (bit : fld w 9 1 = op % 2) : encRb op (fieldD5 w) (fieldLow3 w) = w := by
  refine ofNat_eq_of_fields [3, 1, 5, 1, 2, 4] ?_
  simp only [joinFields, fieldD5_val, fieldLow3, ofNat_fld_toNat, Nat.reduceAdd]
  omega

/-- R105. -/
theorem encA5b_of_fields (top : fld w 12 4 = 9) (group : fld w 9 3 = 4 + op / 2) (bit : fld w 8 1 = op % 2) :
    encA5b op (fieldA5 w) (fieldLow3 w) = w := by
  refine ofNat_eq_of_fields [3, 5, 1, 3, 4] ?_
  simp only [joinFields, fieldA5, fieldLow3, ofNat_fld_toNat, Nat.reduceAdd]
  omega

/-- R106. -/
theorem encA6Rd_of_fields (top : fld w 12 4 = 11) (bit : fld w 11 1 = op) :
    encA6Rd op (fieldD5 w) (fieldA6 w) = w := by
  have low := fld_lt w 0 4
  refine ofNat_eq_of_fields [4, 5, 2, 1, 4] ?_
  simp only [joinFields, fieldD5_val, fieldA6_toNat, Nat.reduceAdd]
  omega

/-- R107, R109. -/
theorem encLdSt_of_fields {s m : Nat} (top : fld w 12 4 = 9) (group : fld w 9 3 = s) (low : fld w 0 4 = m) :
    encLdSt s (fieldD5 w) m = w := by
  refine ofNat_eq_of_fields [4, 5, 3, 4] ?_
  simp only [joinFields, fieldD5_val, Nat.reduceAdd]
  omega

/-- R108. Bit 13 is the highest bit of `q`, whatever the group of the two. -/
theorem encLddStd_of_fields {s y : Nat} (top : fld w 12 4 = 8 ∨ fld w 12 4 = 10) (hs : fld w 9 1 = s)
    (hy : fld w 3 1 = y) : encLddStd s y (fieldD5 w) (fieldQ w) = w := by
  have low := fld_lt w 0 3
  have middle := fld_lt w 10 2
  have high := fld_add w 12 1 3
  have highest := fld_add w 13 1 2
  have bit12 := fld_lt w 12 1
  have bit13 := fld_lt w 13 1
  refine ofNat_eq_of_fields [3, 1, 5, 1, 2, 4] ?_
  simp only [joinFields, fieldD5_val, fieldQ_toNat, Nat.reduceAdd] at high highest ⊢
  omega

/-- R110. -/
theorem fixed8_of_fields {x : Nat} (top : fld w 12 4 = 9) (group : fld w 9 3 = 2) (low : fld w 0 4 = 8)
    (bit : fld w 8 1 = 1) (middle : fld w 4 4 = x) : BitVec.ofNat 16 (0x9508 + x * 16) = w := by
  refine ofNat_eq_of_fields [4, 4, 1, 3, 4] ?_
  simp only [joinFields, Nat.reduceAdd]
  omega

/-- R110. -/
theorem fixed9_of_fields {x : Nat} (top : fld w 12 4 = 9) (group : fld w 9 3 = 2) (low : fld w 0 4 = 9)
    (middle : fld w 4 5 = x) : BitVec.ofNat 16 (0x9409 + x * 16) = w := by
  refine ofNat_eq_of_fields [4, 5, 3, 4] ?_
  simp only [joinFields, Nat.reduceAdd]
  omega

end

/-! ### Every decoded instruction has the words it was decoded from -/

/-- `i` is a core instruction, and its words are as many of `w` and `k` as it has. -/
def Restores (w k : Word) (i : Instr) : Prop := encode i = [w, k].take (encode i).length ∧ i.parent = i

theorem Restores.one {v : Word} (words : encode i = [v]) (core : i.parent = i) (same : v = w) : Restores w k i := by
  rw [Restores, words, same]
  exact ⟨rfl, core⟩

theorem Restores.two {v : Word} (words : encode i = [v, k]) (core : i.parent = i) (same : v = w) : Restores w k i := by
  rw [Restores, words, same]
  exact ⟨rfl, core⟩

theorem encode_movw_fields (w : Word) :
    encode (.movw (regOf (2 * fld w 4 4)) (regOf (2 * fld w 0 4))) = [encRd4Rr4 1 (fld w 4 4) (fld w 0 4)] := by
  have first := fld_lt w 4 4
  have second := fld_lt w 0 4
  rw [encode, regOf_val (by omega), regOf_val (by omega), Nat.mul_div_cancel_left _ (by decide),
    Nat.mul_div_cancel_left _ (by decide)]

theorem encode_muls_fields (w : Word) :
    encode (.muls (regOf (16 + fld w 4 4)) (regOf (16 + fld w 0 4))) = [encRd4Rr4 2 (fld w 4 4) (fld w 0 4)] := by
  have first := fld_lt w 4 4
  have second := fld_lt w 0 4
  rw [encode, regOf_val (by omega), regOf_val (by omega), Nat.add_sub_cancel_left, Nat.add_sub_cancel_left]

theorem nop_of_fields (top : fld w 12 4 = 0) (group : fld w 10 2 = 0) (sub : fld w 8 2 = 0) (low : fld w 0 8 = 0) :
    0x0000 = w := by
  refine ofNat_eq_of_fields [8, 2, 2, 4] ?_
  simp only [joinFields, Nat.reduceAdd]
  omega

theorem decode0_restores (top : fld w 12 4 = 0) (h : decode0 w = some i) : Restores w k i := by
  rcases fld_twoBits w 10 with group | group | group | group
  case inl =>
    rcases fld_twoBits w 8 with sub | sub | sub | sub
    · simp only [decode0, group, sub, Option.ite_none_right_eq_some] at h
      obtain ⟨low, h⟩ := h
      cases h
      exact .one rfl rfl (nop_of_fields top group sub low)
    · simp only [decode0, group, sub] at h
      cases h
      exact .one (encode_movw_fields w) rfl (encRd4Rr4_of_fields top group sub)
    · simp only [decode0, group, sub] at h
      cases h
      exact .one (encode_muls_fields w) rfl (encRd4Rr4_of_fields top group sub)
    · rcases fld_oneBit w 7 with x | x <;> rcases fld_oneBit w 3 with y | y
      all_goals
        simp only [decode0, group, sub, x, y] at h
        cases h
        exact .one rfl rfl (encRd3Rr3_of_fields top group sub x y)
  all_goals
    simp only [decode0, group] at h
    cases h
    exact .one rfl rfl (encRdRr_of_fields top group)

theorem decode1_restores (top : fld w 12 4 = 1) (h : decode1 w = some i) : Restores w k i := by
  rcases fld_twoBits w 10 with sub | sub | sub | sub
  all_goals
    rw [decode1, sub] at h
    cases h
    exact .one rfl rfl (encRdRr_of_fields top sub)

theorem decode2_restores (top : fld w 12 4 = 2) (h : decode2 w = some i) : Restores w k i := by
  rcases fld_twoBits w 10 with sub | sub | sub | sub
  all_goals
    rw [decode2, sub] at h
    cases h
    exact .one rfl rfl (encRdRr_of_fields top sub)

theorem decodeDisp_restores (top : fld w 12 4 = 8 ∨ fld w 12 4 = 10) (h : decodeDisp w = some i) :
    Restores w k i := by
  rcases fld_oneBit w 9 with s | s <;> rcases fld_oneBit w 3 with y | y
  all_goals
    rw [decodeDisp, s, y] at h
    cases h
    exact .one rfl rfl (encLddStd_of_fields top s y)

theorem decodeLoad_restores (top : fld w 12 4 = 9) (group : fld w 9 3 = 0) (h : decodeLoad w k = some i) :
    Restores w k i := by
  unfold decodeLoad at h
  split at h
  case h_1 low =>
    cases h
    exact .two rfl rfl (encLdSt_of_fields top group low)
  case h_14 => cases h
  all_goals
    next low =>
    cases h
    exact .one rfl rfl (encLdSt_of_fields top group low)

theorem decodeStore_restores (top : fld w 12 4 = 9) (group : fld w 9 3 = 1) (h : decodeStore w k = some i) :
    Restores w k i := by
  unfold decodeStore at h
  split at h
  case h_1 low =>
    cases h
    exact .two rfl rfl (encLdSt_of_fields top group low)
  case h_10 => cases h
  all_goals
    next low =>
    cases h
    exact .one rfl rfl (encLdSt_of_fields top group low)

theorem decodeFixed8_restores (top : fld w 12 4 = 9) (group : fld w 9 3 = 2) (low : fld w 0 4 = 8)
    (bit : fld w 8 1 = 1) (h : decodeFixed8 w = some i) : Restores w k i := by
  unfold decodeFixed8 at h
  split at h
  case h_10 => cases h
  all_goals
    next middle =>
    cases h
    exact .one rfl rfl (fixed8_of_fields top group low bit middle)

theorem decodeFixed9_restores (top : fld w 12 4 = 9) (group : fld w 9 3 = 2) (low : fld w 0 4 = 9)
    (h : decodeFixed9 w = some i) : Restores w k i := by
  unfold decodeFixed9 at h
  split at h
  case h_5 => cases h
  all_goals
    next middle =>
    cases h
    exact .one rfl rfl (fixed9_of_fields top group low middle)

/-- The lowest bit of a JMP or CALL is the lowest bit of the low four. -/
theorem fld_lowest (w : Word) : fld w 0 1 = fld w 0 4 % 2 := by
  have cut : fld w 0 4 = _ := fld_add w 0 1 3
  have bit := fld_lt w 0 1
  omega

theorem jmp_restores (top : fld w 12 4 = 9) (group : fld w 9 3 = 2) (low : fld w 0 4 = 12 + fld w 0 1) :
    Restores w k (.jmp (fieldK22 w k)) :=
  .two (by rw [encode, lowWord_fieldK22]) rfl (encK22_of_fields top group low)

theorem call_restores (top : fld w 12 4 = 9) (group : fld w 9 3 = 2) (low : fld w 0 4 = 14 + fld w 0 1) :
    Restores w k (.call (fieldK22 w k)) :=
  .two (by rw [encode, lowWord_fieldK22]) rfl (encK22_of_fields top group low)

theorem decodeOne_restores (top : fld w 12 4 = 9) (group : fld w 9 3 = 2) (h : decodeOne w k = some i) :
    Restores w k i := by
  have lowest := fld_lowest w
  unfold decodeOne at h
  split at h
  case h_8 low =>
    rcases fld_oneBit w 8 with bit | bit
    · rcases fld_oneBit w 7 with clear | clear
      all_goals
        simp only [bit, clear, reduceIte, one_ne_zero] at h
        cases h
        exact .one rfl rfl (encS3_of_fields top group low bit clear)
    · simp only [bit, reduceIte, one_ne_zero] at h
      exact decodeFixed8_restores top group low bit h
  case h_9 low => exact decodeFixed9_restores top group low h
  case h_11 low =>
    obtain ⟨bit, h⟩ := Option.ite_none_right_eq_some.mp h
    cases h
    exact .one rfl rfl (encK4_of_fields top group low bit)
  case h_12 low | h_13 low =>
    cases h
    exact jmp_restores top group (by omega)
  case h_14 low | h_15 low =>
    cases h
    exact call_restores top group (by omega)
  case h_16 => cases h
  all_goals
    next low =>
    cases h
    exact .one rfl rfl (encRd5_of_fields top group low)

/-- MUL alone has bits 15 to 10 of `100111`: bits 11 to 9 are 6 or 7. -/
theorem mul_restores (top : fld w 12 4 = 9) (group : 6 ≤ fld w 9 3) : Restores w k (.mul (fieldD5 w) (fieldR5 w)) := by
  have cut := fld_add w 9 1 2
  have bit := fld_lt w 9 1
  have high := fld_lt w 10 2
  simp only [Nat.reduceAdd] at cut
  exact .one rfl rfl (encRdRr_of_fields top (by omega))

theorem decode9_restores (top : fld w 12 4 = 9) (h : decode9 w k = some i) : Restores w k i := by
  unfold decode9 at h
  split at h
  case h_1 group => exact decodeLoad_restores top group h
  case h_2 group => exact decodeStore_restores top group h
  case h_3 group => exact decodeOne_restores top group h
  case h_4 group =>
    rcases fld_oneBit w 8 with bit | bit
    all_goals
      simp only [bit, reduceIte, one_ne_zero] at h
      cases h
      exact .one rfl rfl (encRdpK6_of_fields top group bit)
  case h_5 group | h_6 group =>
    rcases fld_oneBit w 8 with bit | bit
    all_goals
      simp only [bit, reduceIte, one_ne_zero] at h
      cases h
      exact .one rfl rfl (encA5b_of_fields top group bit)
  case h_7 =>
    have group : 6 ≤ fld w 9 3 := by
      simp only [imp_false] at *
      omega
    cases h
    exact mul_restores top group

theorem decode15_restores (top : fld w 12 4 = 15) (h : decode15 w = some i) : Restores w k i := by
  rcases fld_twoBits w 10 with sub | sub | sub | sub
  case inl | inr.inl =>
    rw [decode15, sub] at h
    cases h
    exact .one rfl rfl (encS3k7_of_fields top sub)
  all_goals
    simp only [decode15, sub, Option.ite_none_right_eq_some] at h
    obtain ⟨low, h⟩ := h
    rcases fld_oneBit w 9 with bit | bit
    all_goals
      simp only [bit, reduceIte, one_ne_zero] at h
      cases h
      exact .one rfl rfl (encRb_of_fields top sub low bit)

theorem decodeWords_restores (h : decodeWords w k = some i) : Restores w k i := by
  unfold decodeWords at h
  split at h
  case h_1 top => exact decode0_restores top h
  case h_2 top => exact decode1_restores top h
  case h_3 top => exact decode2_restores top h
  case h_9 top => exact decodeDisp_restores (.inl top) h
  case h_10 top => exact decode9_restores top h
  case h_11 top => exact decodeDisp_restores (.inr top) h
  case h_12 top =>
    rcases fld_oneBit w 11 with bit | bit
    all_goals
      simp only [bit, reduceIte, one_ne_zero] at h
      cases h
      exact .one rfl rfl (encA6Rd_of_fields top bit)
  case h_13 top | h_14 top =>
    cases h
    exact .one rfl rfl (encK12_of_fields top)
  case h_16 =>
    have small := fld_lt w 12 4
    have top : fld w 12 4 = 15 := by
      simp only [imp_false] at *
      omega
    exact decode15_restores top h
  all_goals
    next top =>
    cases h
    exact .one rfl rfl (encRdK8_of_fields top)

/-- Settles O2: the words are the decoded ones (`decodeWords_restores`), and they are as many as R91 gives the first
(`decodeWords_words`). -/
theorem encodeDecode : Obligations.EncodeDecode := by
  intro w k i decoded
  obtain ⟨words, core⟩ := decodeWords_restores decoded
  have length : (encode i).length = if isTwoWord w then 2 else 1 := (wordsAgree i).1.trans (decodeWords_words decoded)
  refine ⟨?_, core⟩
  rw [words, length]
  split <;> rfl

end Sys2Proof
end

section
/-! The first words that are no instruction (R113), and the four instructions of two words (R90, R91): the decoder's
groups by fields, and the masks of the spec as the fields they read. -/

namespace Sys2Proof

variable {w k : Word}

/-! ### A mask reads fields -/

/-- Two words have a field alike where they have its bits alike. -/
theorem fld_eq_iff (w v : Word) (lo len : Nat) :
    fld w lo len = fld v lo len ↔ ∀ j, lo ≤ j → j < lo + len → w.getLsbD j = v.getLsbD j := by
  have bit (x : Word) (j : Nat) : (fld x lo len).testBit j = (decide (j < len) && x.getLsbD (j + lo)) := by
    rw [fld, Nat.testBit_mod_two_pow, Nat.testBit_div_two_pow, BitVec.getLsbD]
  constructor
  · intro same j above below
    have here := bit w (j - lo)
    rw [same, bit v (j - lo), Nat.sub_add_cancel above] at here
    simpa [show j - lo < len by omega] using here.symm
  · intro same
    refine Nat.eq_of_testBit_eq fun j => ?_
    rw [bit, bit]
    by_cases below : j < len
    · rw [same (j + lo) (by omega) (by omega)]
    · simp [below]

theorem and_eq_and_iff (w v m : Word) :
    w &&& m = v &&& m ↔ ∀ j, m.getLsbD j = true → w.getLsbD j = v.getLsbD j := by
  constructor
  · intro same j set
    have here := congrArg (BitVec.getLsbD · j) same
    simpa [set] using here
  · intro same
    refine BitVec.eq_of_getLsbD_eq fun j _ => ?_
    rw [BitVec.getLsbD_and, BitVec.getLsbD_and]
    cases set : m.getLsbD j with
    | false => simp
    | true => rw [same j set]

/-- The bits of the mask `m` are those of the fields `fs`, each given by its lowest bit and its length. -/
abbrev Covers (m : Word) (fs : List (Nat × Nat)) : Prop :=
  (∀ f ∈ fs, f.1 + f.2 ≤ 16) ∧ ∀ j < 16, m.getLsbD j = fs.any fun f => decide (f.1 ≤ j ∧ j < f.1 + f.2)

/-- A word under a mask is the value `v` where the fields that the mask reads are those of `v`. -/
theorem and_eq_iff_of_covers {m v : Word} {fs : List (Nat × Nat)} (mask : Covers m fs)
    (within : v &&& m = v) :
    w &&& m = v ↔ ∀ f ∈ fs, fld w f.1 f.2 = fld v f.1 f.2 := by
  obtain ⟨inside, bits⟩ := mask
  rw [← within, and_eq_and_iff w v m, within]
  simp only [fld_eq_iff]
  constructor
  · intro same f listed j above below
    have fits := inside f listed
    refine same j ?_
    rw [bits j (by omega), List.any_eq_true]
    exact ⟨f, listed, decide_eq_true ⟨above, below⟩⟩
  · intro same j set
    rw [bits j (BitVec.lt_of_getLsbD set), List.any_eq_true] at set
    obtain ⟨f, listed, range⟩ := set
    obtain ⟨above, below⟩ := of_decide_eq_true range
    exact same f listed j above below

/-- The masks of R113 that read bits 15 to 9 and the low four. -/
theorem and_FE0F_iff {v : Word} (within : v &&& 0xFE0F = v) : w &&& 0xFE0F = v ↔
    fld w 12 4 = fld v 12 4 ∧ fld w 9 3 = fld v 9 3 ∧ fld w 0 4 = fld v 0 4 := by
  rw [and_eq_iff_of_covers (fs := [(12, 4), (9, 3), (0, 4)]) (by decide) within]
  simp

theorem and_FE0C_iff {v : Word} (within : v &&& 0xFE0C = v) : w &&& 0xFE0C = v ↔
    fld w 12 4 = fld v 12 4 ∧ fld w 9 3 = fld v 9 3 ∧ fld w 2 2 = fld v 2 2 := by
  rw [and_eq_iff_of_covers (fs := [(12, 4), (9, 3), (2, 2)]) (by decide) within]
  simp

theorem and_FF0F_iff {v : Word} (within : v &&& 0xFF0F = v) : w &&& 0xFF0F = v ↔
    fld w 12 4 = fld v 12 4 ∧ fld w 9 3 = fld v 9 3 ∧ fld w 8 1 = fld v 8 1 ∧ fld w 0 4 = fld v 0 4 := by
  rw [and_eq_iff_of_covers (fs := [(12, 4), (9, 3), (8, 1), (0, 4)]) (by decide) within]
  simp

theorem and_FF00_iff {v : Word} (within : v &&& 0xFF00 = v) : w &&& 0xFF00 = v ↔
    fld w 12 4 = fld v 12 4 ∧ fld w 10 2 = fld v 10 2 ∧ fld w 8 2 = fld v 8 2 := by
  rw [and_eq_iff_of_covers (fs := [(12, 4), (10, 2), (8, 2)]) (by decide) within]
  simp

theorem and_F808_iff {v : Word} (within : v &&& 0xF808 = v) : w &&& 0xF808 = v ↔
    fld w 12 4 = fld v 12 4 ∧ fld w 11 1 = fld v 11 1 ∧ fld w 3 1 = fld v 3 1 := by
  rw [and_eq_iff_of_covers (fs := [(12, 4), (11, 1), (3, 1)]) (by decide) within]
  simp

/-- A word is `v` where a list of fields that covers it has the values of `v`. -/
theorem eq_iff_of_covers {v : Word} {fs : List (Nat × Nat)} (mask : Covers (BitVec.allOnes 16) fs) :
    w = v ↔ ∀ f ∈ fs, fld w f.1 f.2 = fld v f.1 f.2 := by
  rw [← and_eq_iff_of_covers mask BitVec.and_allOnes, BitVec.and_allOnes]

/-! ### The words each group of the decoder leaves -/

theorem decode0_eq_none_iff (w : Word) :
    decode0 w = none ↔ fld w 10 2 = 0 ∧ fld w 8 2 = 0 ∧ fld w 0 8 ≠ 0 := by
  rcases fld_twoBits w 10 with group | group | group | group
  case inl =>
    rcases fld_twoBits w 8 with sub | sub | sub | sub
    case inr.inr.inr =>
      rcases fld_oneBit w 7 with x | x <;> rcases fld_oneBit w 3 with y | y <;> simp [decode0, group, sub, x, y]
    all_goals simp [decode0, group, sub]
  all_goals simp [decode0, group]

theorem decode1_ne_none (w : Word) : decode1 w ≠ none := by
  unfold decode1
  split <;> simp

theorem decode2_ne_none (w : Word) : decode2 w ≠ none := by
  unfold decode2
  split <;> simp

theorem decodeDisp_ne_none (w : Word) : decodeDisp w ≠ none := by
  unfold decodeDisp
  split <;> simp

theorem decodeLoad_eq_none_iff (w k : Word) :
    decodeLoad w k = none ↔ fld w 0 4 = 3 ∨ fld w 0 4 = 8 ∨ fld w 0 4 = 11 := by
  have small := fld_lt w 0 4
  unfold decodeLoad
  split <;> simp only [reduceCtorEq, false_iff, true_iff, imp_false] at * <;> omega

theorem decodeStore_eq_none_iff (w k : Word) :
    decodeStore w k = none ↔ fld w 0 4 = 3 ∨ fld w 2 2 = 1 ∨ fld w 0 4 = 8 ∨ fld w 0 4 = 11 := by
  have small := fld_lt w 0 4
  have cut : fld w 0 4 = _ := fld_add w 0 2 2
  have low := fld_lt w 0 2
  simp only [Nat.reduceAdd] at cut
  unfold decodeStore
  split <;> simp only [reduceCtorEq, false_iff, true_iff, imp_false] at * <;> omega

theorem decodeFixed8_eq_none_iff (w : Word) :
    decodeFixed8 w = none ↔ fld w 4 4 ∈ [2, 3, 4, 5, 6, 7, 11] := by
  have small := fld_lt w 4 4
  unfold decodeFixed8
  simp only [List.mem_cons, List.not_mem_nil, or_false]
  split <;> simp only [reduceCtorEq, false_iff, true_iff, imp_false] at * <;> omega

theorem decodeFixed9_eq_none_iff (w : Word) :
    decodeFixed9 w = none ↔ fld w 4 5 ≠ 0 ∧ fld w 4 5 ≠ 1 ∧ fld w 4 5 ≠ 16 ∧ fld w 4 5 ≠ 17 := by
  unfold decodeFixed9
  split <;> simp_all

theorem decodeOne_eq_none_iff (w k : Word) : decodeOne w k = none ↔
    fld w 0 4 = 4 ∨
    (fld w 0 4 = 9 ∧ fld w 4 5 ≠ 0 ∧ fld w 4 5 ≠ 1 ∧ fld w 4 5 ≠ 16 ∧ fld w 4 5 ≠ 17) ∨
    (fld w 8 1 = 1 ∧ fld w 0 4 = 8 ∧ fld w 4 4 ∈ [2, 3, 4, 5, 6, 7, 11]) ∨
    (fld w 8 1 = 1 ∧ fld w 0 4 = 11) := by
  have small := fld_lt w 0 4
  unfold decodeOne
  split
  case h_8 low =>
    rcases fld_oneBit w 8 with bit | bit
    · rcases fld_oneBit w 7 with clear | clear <;> simp [low, bit, clear]
    · simp [low, bit, decodeFixed8_eq_none_iff]
  case h_9 low => simp [low, decodeFixed9_eq_none_iff]
  case h_11 low => rcases fld_oneBit w 8 with bit | bit <;> simp [low, bit]
  case h_16 =>
    have low : fld w 0 4 = 4 := by
      simp only [imp_false] at *
      omega
    simp [low]
  all_goals
    next low => simp [low]

theorem decode9_eq_none_iff (w k : Word) : decode9 w k = none ↔
    (fld w 9 3 = 0 ∧ decodeLoad w k = none) ∨ (fld w 9 3 = 1 ∧ decodeStore w k = none) ∨
    (fld w 9 3 = 2 ∧ decodeOne w k = none) := by
  unfold decode9
  split
  case h_1 group | h_2 group | h_3 group => simp [group]
  case h_7 => simp_all
  all_goals
    next group =>
    rcases fld_oneBit w 8 with bit | bit <;> simp [group, bit]

theorem decode15_eq_none_iff (w : Word) : decode15 w = none ↔ fld w 11 1 = 1 ∧ fld w 3 1 = 1 := by
  have cut : fld w 10 2 = _ := fld_add w 10 1 1
  have bit10 := fld_lt w 10 1
  have high : fld w 11 1 = fld w 10 2 / 2 := by
    simp only [Nat.reduceAdd] at cut
    omega
  rw [high]
  rcases fld_twoBits w 10 with sub | sub | sub | sub
  case inl | inr.inl => simp [decode15, sub]
  all_goals rcases fld_oneBit w 3 with low | low <;> rcases fld_oneBit w 9 with bit | bit <;>
    simp [decode15, sub, low, bit]

theorem decodeWords_eq_none_iff (w k : Word) : decodeWords w k = none ↔
    (fld w 12 4 = 0 ∧ decode0 w = none) ∨ (fld w 12 4 = 9 ∧ decode9 w k = none) ∨
    (fld w 12 4 = 15 ∧ decode15 w = none) := by
  have small := fld_lt w 12 4
  unfold decodeWords
  split
  case h_1 top | h_10 top => simp [top]
  case h_2 top => simp [top, decode1_ne_none]
  case h_3 top => simp [top, decode2_ne_none]
  case h_9 top | h_11 top => simp [top, decodeDisp_ne_none]
  case h_12 top => rcases fld_oneBit w 11 with bit | bit <;> simp [top, bit]
  case h_16 =>
    have top : fld w 12 4 = 15 := by
      simp only [imp_false] at *
      omega
    simp [top]
  all_goals
    next top => simp [top]

/-! ### The rows of R113 as fields -/

theorem row_lowByte_iff (w : Word) : (w &&& 0xFF00 = 0x0000 ∧ w ≠ 0x0000) ↔
    fld w 12 4 = 0 ∧ fld w 10 2 = 0 ∧ fld w 8 2 = 0 ∧ fld w 0 8 ≠ 0 := by
  rw [and_FF00_iff (by decide), Ne,
    eq_iff_of_covers (fs := [(12, 4), (10, 2), (8, 2), (0, 8)]) (by decide)]
  simp [fld_ofNat]
  tauto

theorem row_load_iff (w : Word) :
    (w &&& 0xFE0F = 0x9003 ∨ w &&& 0xFE0F = 0x9008 ∨ w &&& 0xFE0F = 0x900B) ↔
    fld w 12 4 = 9 ∧ fld w 9 3 = 0 ∧ (fld w 0 4 = 3 ∨ fld w 0 4 = 8 ∨ fld w 0 4 = 11) := by
  rw [and_FE0F_iff (by decide), and_FE0F_iff (by decide), and_FE0F_iff (by decide)]
  simp [fld_ofNat, and_or_left]

theorem row_store_iff (w : Word) :
    (w &&& 0xFE0F = 0x9203 ∨ w &&& 0xFE0C = 0x9204 ∨ w &&& 0xFE0F = 0x9208 ∨ w &&& 0xFE0F = 0x920B) ↔
    fld w 12 4 = 9 ∧ fld w 9 3 = 1 ∧ (fld w 0 4 = 3 ∨ fld w 2 2 = 1 ∨ fld w 0 4 = 8 ∨ fld w 0 4 = 11) := by
  rw [and_FE0F_iff (by decide), and_FE0C_iff (by decide), and_FE0F_iff (by decide), and_FE0F_iff (by decide)]
  simp [fld_ofNat, and_or_left]

theorem row_oneRegister_iff (w : Word) :
    w &&& 0xFE0F = 0x9404 ↔ fld w 12 4 = 9 ∧ fld w 9 3 = 2 ∧ fld w 0 4 = 4 := by
  rw [and_FE0F_iff (by decide)]
  simp [fld_ofNat]

theorem row_indirect_iff (w : Word) :
    (w &&& 0xFE0F = 0x9409 ∧ w ≠ 0x9409 ∧ w ≠ 0x9419 ∧ w ≠ 0x9509 ∧ w ≠ 0x9519) ↔
    fld w 12 4 = 9 ∧ fld w 9 3 = 2 ∧
      (fld w 0 4 = 9 ∧ fld w 4 5 ≠ 0 ∧ fld w 4 5 ≠ 1 ∧ fld w 4 5 ≠ 16 ∧ fld w 4 5 ≠ 17) := by
  have whole (v : Word) :=
    eq_iff_of_covers (w := w) (v := v) (fs := [(12, 4), (9, 3), (4, 5), (0, 4)]) (by decide)
  rw [and_FE0F_iff (by decide)]
  simp only [Ne, whole]
  simp [fld_ofNat]
  tauto

theorem middle_iff (w : Word) :
    (w &&& 0x00F0) >>> 4 ∈ ([2, 3, 4, 5, 6, 7, 11] : List Word) ↔ fld w 4 4 ∈ [2, 3, 4, 5, 6, 7, 11] := by
  have field : (w &&& 0x00F0) >>> 4 = BitVec.ofNat 16 (fld w 4 4) := by
    apply BitVec.eq_of_toNat_eq
    have small := fld_lt w 4 4
    rw [BitVec.toNat_ushiftRight, BitVec.toNat_and, Nat.shiftRight_eq_div_pow, Nat.and_div_two_pow, BitVec.toNat_ofNat,
      Nat.mod_eq_of_lt (by omega)]
    exact Nat.and_two_pow_sub_one_eq_mod _ 4
  have small := fld_lt w 4 4
  rw [field]
  generalize fld w 4 4 = n at small
  interval_cases n <;> decide

theorem row_fixed_iff (w : Word) :
    (w &&& 0xFF0F = 0x9508 ∧ (w &&& 0x00F0) >>> 4 ∈ ([2, 3, 4, 5, 6, 7, 11] : List Word)) ↔
    fld w 12 4 = 9 ∧ fld w 9 3 = 2 ∧ (fld w 8 1 = 1 ∧ fld w 0 4 = 8 ∧ fld w 4 4 ∈ [2, 3, 4, 5, 6, 7, 11]) := by
  rw [and_FF0F_iff (by decide), middle_iff]
  simp [fld_ofNat, and_assoc]

theorem row_des_iff (w : Word) :
    w &&& 0xFF0F = 0x950B ↔ fld w 12 4 = 9 ∧ fld w 9 3 = 2 ∧ (fld w 8 1 = 1 ∧ fld w 0 4 = 11) := by
  rw [and_FF0F_iff (by decide)]
  simp [fld_ofNat]

theorem row_bit_iff (w : Word) : w &&& 0xF808 = 0xF808 ↔ fld w 12 4 = 15 ∧ fld w 11 1 = 1 ∧ fld w 3 1 = 1 := by
  rw [and_F808_iff (by decide)]
  simp [fld_ofNat]

/-- Settles O3: the words that each group of the decoder leaves are rows of the table, row by row. -/
theorem unassignedWords : Obligations.UnassignedWords := by
  intro w k
  rw [row_lowByte_iff, row_load_iff, row_store_iff, row_oneRegister_iff, row_indirect_iff, row_fixed_iff, row_des_iff,
    row_bit_iff, decodeWords_eq_none_iff, decode0_eq_none_iff, decode9_eq_none_iff, decode15_eq_none_iff,
    decodeLoad_eq_none_iff, decodeStore_eq_none_iff, decodeOne_eq_none_iff]
  simp only [and_or_left, or_assoc]

/-! ### Two words -/

/-- R90: the four instructions of two words. -/
theorem words_eq_two_iff (i : Instr) : i.words = 2 ↔
    (∃ d a, i = .lds d a) ∨ (∃ a r, i = .sts a r) ∨ (∃ a, i = .jmp a) ∨ ∃ a, i = .call a := by
  constructor
  · intro two
    cases i with
    | lds d a => exact .inl ⟨d, a, rfl⟩
    | sts a r => exact .inr (.inl ⟨a, r, rfl⟩)
    | jmp a => exact .inr (.inr (.inl ⟨a, rfl⟩))
    | call a => exact .inr (.inr (.inr ⟨a, rfl⟩))
    | _ => cases two
  · rintro (⟨d, a, rfl⟩ | ⟨a, r, rfl⟩ | ⟨a, rfl⟩ | ⟨a, rfl⟩) <;> rfl

/-- Settles O4: an instruction has two words where R91 says so of its first word (`decodeWords_words`). -/
theorem twoWordInstructions : Obligations.TwoWordInstructions := by
  intro w k i decoded
  have words := decodeWords_words decoded
  refine ⟨?_, words_eq_two_iff i, ?_⟩
  · have pattern : isTwoWord w = true ↔ w &&& 0xFC0F = 0x9000 ∨ w &&& 0xFE0C = 0x940C := by simp [isTwoWord]
    rw [words, ← pattern]
    split <;> simp [*]
  · rw [words]
    split
    · exact .inr rfl
    · exact .inl rfl

/-! ### Words of the spec -/

/-- Settles O5, each word by evaluation of the decoder. -/
theorem sampleWordsDecode : Obligations.SampleWordsDecode := by
  refine ⟨?_, ?_, ?_, ?_, ?_, ?_, ?_, ?_, ?_, ?_, ?_, ?_, ?_, ?_⟩ <;> decide

end Sys2Proof
end

section
/-! The instructions that are other names of a core instruction's word (R114) do what that instruction does. -/

namespace Sys2Proof.Machine

variable {s : State}

/-! ### Values that an operation leaves as they were -/

theorem setReg_reg (s : State) (d : Reg) : s.setReg d (s.reg d) = s := by
  simp only [State.setReg, State.reg, Vector.set_getElem_self]

theorem ptrAddr_lt (s : State) (p : Ptr) : s.ptrAddr p < addrSpace s.cfg := by
  have low := (s.ptr p).isLt
  have high := (s.rampOf p).isLt
  unfold addrSpace
  split
  next big =>
    rw [ptrAddr_big big]
    omega
  next small =>
    rw [ptrAddr_small (by simpa using small)]
    omega

/-- R220: displacement 0 is the pointer itself. -/
theorem eaDisp_zero (s : State) (p : Ptr) : s.eaDisp p 0 = s.ptrAddr p := by
  rw [eaDisp_eq]
  exact Nat.mod_eq_of_lt (ptrAddr_lt s p)

/-! ### A register added to itself -/

theorem putFlag_comm (x : Byte) {f g : Flag} (other : f ≠ g) (a b : Bool) :
    putFlag (putFlag x f a) g b = putFlag (putFlag x g b) f a := by
  refine sreg_ext fun e => ?_
  by_cases ef : e = f
  · subst ef
    rw [flagOf_putFlag_other _ other, flagOf_putFlag_same, flagOf_putFlag_same]
  · rw [flagOf_putFlag_other _ ef]
    by_cases eg : e = g
    · subst eg
      rw [flagOf_putFlag_same, flagOf_putFlag_same]
    · rw [flagOf_putFlag_other _ eg, flagOf_putFlag_other _ eg, flagOf_putFlag_other _ ef]

/-- Doubling is a shift, and the carry enters the bit that the shift leaves free. -/
theorem add8_self_r (a : Byte) (cin : Bool) : (add8 a a cin).r = a <<< 1 ||| (if cin then 0x01 else 0x00) := by
  have double : a + a = a <<< 1 := by
    apply BitVec.eq_of_toNat_eq
    rw [BitVec.toNat_add, BitVec.toNat_shiftLeft, Nat.shiftLeft_eq]
    omega
  change a + a + (if cin then 1 else 0) = _
  rw [double]
  refine BitVec.add_eq_or_of_and_eq_zero _ _ (BitVec.eq_of_getLsbD_eq fun j _ => ?_)
  cases cin <;> cases j <;> simp

/-- R270: the flags of LSL and ROL are those that R122 gives a register added to itself. -/
theorem putAlu_add8_self (x a : Byte) (cin : Bool) :
    putAlu x (add8 a a cin) = putShiftLeft x a (add8 a a cin).r := by
  have half : (add8 a a cin).h = a.getLsbD 3 := by
    simp only [add8]
    cases a.getLsbD 3 <;> simp
  have carry : (add8 a a cin).c = a.getLsbD 7 := by
    simp only [add8]
    cases a.getLsbD 7 <;> simp
  have overflow : (add8 a a cin).v = ((add8 a a cin).r.getLsbD 7 ^^ a.getLsbD 7) := by
    simp only [add8]
    cases a.getLsbD 7 <;> simp
  rw [putAlu, half, carry, overflow, putFlag_comm _ (by decide)]
  rfl

theorem execLsl_eq (d : Reg) (s : State) : execLsl d s = execAdd d d s := by
  have shift : s.reg d <<< 1 = (add8 (s.reg d) (s.reg d) false).r := by simp [add8_self_r]
  rw [execAdd, State.writeAlu, putAlu_add8_self, ← shift]
  rfl

theorem execRol_eq (d : Reg) (s : State) : execRol d s = execAdc d d s := by
  rw [execAdc, State.writeAlu, putAlu_add8_self, add8_self_r]
  rfl

/-! ### The logical names -/

theorem execTst_eq (d : Reg) (s : State) : execTst d s = execAnd d d s := by
  rw [execAnd, BitVec.and_self, State.writeLogic, State.writeResult, setReg_reg]
  rfl

theorem execClr_eq (d : Reg) (s : State) : execClr d s = execEor d d s := by
  rw [execEor, BitVec.xor_self]
  rfl

/-! ### The flags raised by name -/

theorem raise_eq_bset {n : BitVec 3} (other : flagNumber n ≠ .i) (s : State) :
    .next ((s.setFlag (flagNumber n) true).advance 1) = execBset n s := by
  rw [execBset, raiseFlag_eq_setFlag s other]

/-- Settles O6: the names whose meaning is written in the core instruction's own operations agree by definition; the
others by what a register combined with itself gives, by displacement 0, and by the hold-off that only I starts. -/
theorem otherNamesAgree : Obligations.OtherNamesAgree := by
  intro i s
  cases i with
  | tst d => exact execTst_eq d s
  | clr d => exact execClr_eq d s
  | lsl d => exact execLsl_eq d s
  | rol d => exact execRol_eq d s
  | ldY d | ldZ d => exact congrArg (s.loadFrom d · 1) (eaDisp_zero s _).symm
  | stY r | stZ r => exact congrArg (s.storeTo · (s.reg r) 1) (eaDisp_zero s _).symm
  | sec => exact raise_eq_bset (n := 0) (by decide) s
  | sez => exact raise_eq_bset (n := 1) (by decide) s
  | sen => exact raise_eq_bset (n := 2) (by decide) s
  | sev => exact raise_eq_bset (n := 3) (by decide) s
  | ses => exact raise_eq_bset (n := 4) (by decide) s
  | seh => exact raise_eq_bset (n := 5) (by decide) s
  | set => exact raise_eq_bset (n := 6) (by decide) s
  | _ => rfl

end Sys2Proof.Machine
end

section
/-! SREG as eight flags: what the model's flag writes give in the terms of the claims (R25, R30, R122 to R127). -/

namespace Sys2Proof.Machine

/-! ### Flag writes -/

/-- A flag written reads as written, and every other flag as before. -/
theorem flagOf_putFlag (x : Byte) (f e : Flag) (b : Bool) :
    flagOf (putFlag x f b) e = if e = f then b else flagOf x e := by
  split
  · rw [‹e = f›, flagOf_putFlag_same]
  · exact flagOf_putFlag_other x ‹_› b

/-- S, V, N and Z written: the other four flags are kept. -/
theorem putSVNZ_eq (x : Byte) (v n z : Bool) :
    putSVNZ x v n z = arithSreg x (flagOf x .h) v n z (flagOf x .c) :=
  sreg_ext fun e => by cases e <;> simp [putSVNZ, arithSreg, flagOf_putFlag]

theorem putFlag_h_arithSreg (x : Byte) (h v n z c b : Bool) :
    putFlag (arithSreg x h v n z c) .h b = arithSreg x b v n z c :=
  sreg_ext fun e => by cases e <;> simp [arithSreg, flagOf_putFlag]

theorem putFlag_c_arithSreg (x : Byte) (h v n z c b : Bool) :
    putFlag (arithSreg x h v n z c) .c b = arithSreg x h v n z b :=
  sreg_ext fun e => by cases e <;> simp [arithSreg, flagOf_putFlag]

theorem putAlu_eq (x : Byte) (f : Alu) : putAlu x f = arithSreg x f.h f.v f.n f.z f.c := by
  rw [putAlu, putSVNZ_eq, putFlag_h_arithSreg, putFlag_c_arithSreg]

/-! ### Bits and signs as numbers -/

theorem getLsbD_eq_div {w : Nat} (x : BitVec w) (j : Nat) : x.getLsbD j = decide (x.toNat / 2 ^ j % 2 = 1) :=
  Nat.testBit_eq_decide_div_mod_eq

theorem getLsbD_three (x : Byte) : x.getLsbD 3 = decide (8 ≤ x.toNat % 16) := by
  rw [getLsbD_eq_div, decide_eq_decide]
  omega

theorem getLsbD_seven (x : Byte) : x.getLsbD 7 = decide (128 ≤ x.toNat) := flagOf_i x

theorem getLsbD_fifteen (x : Word) : x.getLsbD 15 = decide (32768 ≤ x.toNat) := by
  have := x.isLt
  rw [getLsbD_eq_div, decide_eq_decide]
  omega

theorem byte_toInt (x : Byte) : x.toInt = if 128 ≤ x.toNat then (x.toNat : Int) - 256 else x.toNat := by
  rw [BitVec.toInt_eq_toNat_cond]
  split <;> split <;> omega

theorem word_toInt (x : Word) : x.toInt = if 32768 ≤ x.toNat then (x.toNat : Int) - 65536 else x.toNat := by
  rw [BitVec.toInt_eq_toNat_cond]
  split <;> split <;> omega

/-- A test for zero is one of the number. -/
theorem decide_eq_zero {w : Nat} (x : BitVec w) : decide (x = 0) = decide (x.toNat = 0) := by
  rw [decide_eq_decide, BitVec.toNat_eq]
  simp

/-- The carry or borrow as a number. -/
theorem carry_toNat (c : Bool) : (if c then 1 else 0 : Byte).toNat = c.toNat := by
  cases c <;> rfl

/-- The bits that R122 writes a carry with, as one comparison: `m` is the weight of the top bit of `a`, `b` and `r`. -/
theorem carry_of_topBits {m a b r c : Nat} (ha : a < 2 * m) (hb : b < 2 * m) (hr : r < 2 * m) (hc : c ≤ 1)
    (sum : r = a + b + c ∨ r + 2 * m = a + b + c) :
    (decide (m ≤ a) && decide (m ≤ b) || decide (m ≤ b) && !decide (m ≤ r) || !decide (m ≤ r) && decide (m ≤ a)) =
      decide (2 * m ≤ a + b + c) := by
  simp only [← decide_not, ← Bool.decide_and, ← Bool.decide_or, decide_eq_decide]
  omega

/-- The bits that R123 writes a borrow with, as one comparison: `m` is the weight of the top bit of `a`, `b` and `r`. -/
theorem borrow_of_topBits {m a b r c : Nat} (ha : a < 2 * m) (hb : b < 2 * m) (hr : r < 2 * m) (hc : c ≤ 1)
    (difference : r + b + c = a ∨ r + b + c = a + 2 * m) :
    (!decide (m ≤ a) && decide (m ≤ b) || decide (m ≤ b) && decide (m ≤ r) || decide (m ≤ r) && !decide (m ≤ a)) =
      decide (a < b + c) := by
  simp only [← decide_not, ← Bool.decide_and, ← Bool.decide_or, decide_eq_decide]
  omega

/-! ### Addition (R122) -/

section
variable (a b : Byte) (c : Bool)

theorem sumByte_toNat : (sumByte a b c).toNat = (a.toNat + b.toNat + c.toNat) % 256 := BitVec.toNat_ofNat _ _

theorem add8_r : (add8 a b c).r = sumByte a b c := by
  apply BitVec.eq_of_toNat_eq
  change (a + b + if c then 1 else 0).toNat = _
  rw [sumByte_toNat, BitVec.toNat_add, BitVec.toNat_add, carry_toNat]
  omega

/-- R122: H is the carry out of the low four bits. -/
theorem add8_h : (add8 a b c).h = decide (15 < a.toNat % 16 + b.toNat % 16 + c.toNat) := by
  have value := sumByte_toNat a b c
  have := c.toNat_le
  change (a.getLsbD 3 && b.getLsbD 3 || b.getLsbD 3 && !(add8 a b c).r.getLsbD 3 ||
    !(add8 a b c).r.getLsbD 3 && a.getLsbD 3) = _
  rw [add8_r, getLsbD_three, getLsbD_three, getLsbD_three]
  exact carry_of_topBits (by omega) (by omega) (by omega) this (by omega)

/-- R122: C is the carry out of all eight. -/
theorem add8_c : (add8 a b c).c = decide (255 < a.toNat + b.toNat + c.toNat) := by
  have value := sumByte_toNat a b c
  have := c.toNat_le
  change (a.getLsbD 7 && b.getLsbD 7 || b.getLsbD 7 && !(add8 a b c).r.getLsbD 7 ||
    !(add8 a b c).r.getLsbD 7 && a.getLsbD 7) = _
  rw [add8_r, getLsbD_seven, getLsbD_seven, getLsbD_seven]
  exact carry_of_topBits a.isLt b.isLt (BitVec.isLt _) this (by omega)

/-- R122: V is the overflow of the signed sum. -/
theorem add8_v : (add8 a b c).v = overflows8 (a.toInt + b.toInt + c.toNat) := by
  have value := sumByte_toNat a b c
  have := c.toNat_le
  change (a.getLsbD 7 && b.getLsbD 7 && !(add8 a b c).r.getLsbD 7 ||
    !a.getLsbD 7 && !b.getLsbD 7 && (add8 a b c).r.getLsbD 7) = _
  rw [add8_r, getLsbD_seven, getLsbD_seven, getLsbD_seven, overflows8, byte_toInt, byte_toInt]
  simp only [← decide_not, ← Bool.decide_and, ← Bool.decide_or, decide_eq_decide]
  omega

theorem add8_n : (add8 a b c).n = decide (128 ≤ (a.toNat + b.toNat + c.toNat) % 256) := by
  change (add8 a b c).r.getLsbD 7 = _
  rw [add8_r, getLsbD_seven, sumByte_toNat]

theorem add8_z : (add8 a b c).z = decide ((a.toNat + b.toNat + c.toNat) % 256 = 0) := by
  change decide ((add8 a b c).r = 0) = _
  rw [add8_r, decide_eq_zero, sumByte_toNat]

theorem putAlu_add8 (x : Byte) : putAlu x (add8 a b c) = sumSreg x a b c := by
  rw [putAlu_eq, add8_h, add8_v, add8_n, add8_z, add8_c]
  rfl

/-! ### Subtraction (R123, R127) -/

theorem diffByte_toNat : ((diffByte a b c).toNat : Int) = (a.toNat - b.toNat - c.toNat) % 256 := by
  rw [diffByte, BitVec.toNat_ofInt]
  exact Int.toNat_of_nonneg (Int.emod_nonneg _ (by decide))

theorem sub8_r : (sub8 a b c).r = diffByte a b c := by
  have value := diffByte_toNat a b c
  have := c.toNat_le
  apply BitVec.eq_of_toNat_eq
  change (a - b - if c then 1 else 0).toNat = _
  rw [BitVec.toNat_sub, BitVec.toNat_sub, carry_toNat]
  omega

/-- R123: H is the borrow of the low four bits. -/
theorem sub8_h : (sub8 a b c).h = decide (a.toNat % 16 < b.toNat % 16 + c.toNat) := by
  have value := diffByte_toNat a b c
  have := c.toNat_le
  change (!a.getLsbD 3 && b.getLsbD 3 || b.getLsbD 3 && (sub8 a b c).r.getLsbD 3 ||
    (sub8 a b c).r.getLsbD 3 && !a.getLsbD 3) = _
  rw [sub8_r, getLsbD_three, getLsbD_three, getLsbD_three]
  exact borrow_of_topBits (by omega) (by omega) (by omega) this (by omega)

/-- R123: C is the borrow of all eight. -/
theorem sub8_c : (sub8 a b c).c = decide (a.toNat < b.toNat + c.toNat) := by
  have value := diffByte_toNat a b c
  have := c.toNat_le
  change (!a.getLsbD 7 && b.getLsbD 7 || b.getLsbD 7 && (sub8 a b c).r.getLsbD 7 ||
    (sub8 a b c).r.getLsbD 7 && !a.getLsbD 7) = _
  rw [sub8_r, getLsbD_seven, getLsbD_seven, getLsbD_seven]
  exact borrow_of_topBits a.isLt b.isLt (BitVec.isLt _) this (by omega)

/-- R123: V is the overflow of the signed difference. -/
theorem sub8_v : (sub8 a b c).v = overflows8 (a.toInt - b.toInt - c.toNat) := by
  have value := diffByte_toNat a b c
  have := c.toNat_le
  change (a.getLsbD 7 && !b.getLsbD 7 && !(sub8 a b c).r.getLsbD 7 ||
    !a.getLsbD 7 && b.getLsbD 7 && (sub8 a b c).r.getLsbD 7) = _
  rw [sub8_r, getLsbD_seven, getLsbD_seven, getLsbD_seven, overflows8, byte_toInt, byte_toInt]
  simp only [← decide_not, ← Bool.decide_and, ← Bool.decide_or, decide_eq_decide]
  omega

theorem sub8_n : (sub8 a b c).n = decide (128 ≤ (diffByte a b c).toNat) := by
  change (sub8 a b c).r.getLsbD 7 = _
  rw [sub8_r, getLsbD_seven]

theorem sub8_z : (sub8 a b c).z = decide ((diffByte a b c).toNat = 0) := by
  change decide ((sub8 a b c).r = 0) = _
  rw [sub8_r, decide_eq_zero]

/-- R127: the zero of the result counts only where Z was set. -/
theorem putAlu_stickyZ_sub8 (x : Byte) (z : Bool) :
    putAlu x (stickyZ (sub8 a b c) z) = diffSreg x a b c z := by
  rw [putAlu_eq, stickyZ, sub8_h, sub8_v, sub8_n, sub8_z, sub8_c]
  rfl

theorem putAlu_sub8 (x : Byte) : putAlu x (sub8 a b c) = diffSreg x a b c true := by
  rw [← putAlu_stickyZ_sub8, stickyZ, Bool.and_true]

end

/-! ### The other flag rules -/

/-- R124: V is cleared, N and Z judge the result. -/
theorem putLogic_eq (x r : Byte) : putLogic x r = logicSreg x r := by
  rw [putLogic, putSVNZ_eq, getLsbD_seven]
  rfl

theorem putCom_eq (x r : Byte) :
    putCom x r = arithSreg x (flagOf x .h) false (128 ≤ r.toNat) (r.toNat = 0) true := by
  rw [putCom, putLogic, putSVNZ_eq, putFlag_c_arithSreg, getLsbD_seven, decide_eq_zero]

theorem putStep_eq (x : Byte) (v : Bool) (r : Byte) :
    putStep x v r = arithSreg x (flagOf x .h) v (128 ≤ r.toNat) (r.toNat = 0) (flagOf x .c) := by
  rw [putStep, putSVNZ_eq, getLsbD_seven, decide_eq_zero]

/-- The flags of a word result, with V and C as given (R125). -/
theorem putWord_eq (x : Byte) (v c : Bool) (r : Word) :
    putFlag (putSVNZ x v (r.getLsbD 15) (r = 0)) .c c = wordSreg x v r c := by
  rw [putSVNZ_eq, putFlag_c_arithSreg, getLsbD_fifteen]
  rfl

theorem putMul_eq (x : Byte) (p r : Word) : putMul x p r = productSreg x (p.getLsbD 15) (r = 0) :=
  sreg_ext fun e => by cases e <;> simp [putMul, productSreg, flagOf_putFlag]

end Sys2Proof.Machine
end

section
/-! The arithmetic and logic instructions (R122 to R127, R130 to R151, R185 to R187): the whole next state of each, from
its result and its flag rule. -/

namespace Sys2Proof.Machine

/-! ### The ends of an instruction -/

theorem writeResult_eq (s : State) (d : Reg) (v sreg : Byte) : s.writeResult d v sreg =
    .next { s with regs := s.regs.set d v d.isLt, sreg := sreg, pc := s.nextPc 1 } := by
  rw [State.writeResult, advance_eq]
  rfl

theorem writePair_eq (s : State) (d : Reg) (v : Word) (sreg : Byte) : s.writePair d v sreg =
    .next { s.setPair d v with sreg := sreg, pc := s.nextPc 1 } := by
  rw [State.writePair, advance_eq]
  rfl

theorem setReg_advance (s : State) (d : Reg) (v : Byte) : (s.setReg d v).advance 1 =
    { s with regs := s.regs.set d v d.isLt, pc := s.nextPc 1 } := by
  rw [advance_eq]
  rfl

/-! ### ADD and ADC -/

theorem writeAlu_add8 (s : State) (d : Reg) (a b : Byte) (c : Bool) : s.writeAlu d (add8 a b c) = .next { s with
    regs := s.regs.set d (sumByte a b c) d.isLt, sreg := sumSreg s.sreg a b c, pc := s.nextPc 1 } := by
  rw [State.writeAlu, writeResult_eq, add8_r, putAlu_add8]

/-- Settles O7: both are an addition into Rd, of carry 0 and of C. -/
theorem addResult : Obligations.AddResult := fun s d r =>
  ⟨writeAlu_add8 s d (s.reg d) (s.reg r) false, writeAlu_add8 s d (s.reg d) (s.reg r) (s.flag .c)⟩

/-! ### The subtractions and compares -/

theorem writeAlu_sub8 (s : State) (d : Reg) (a b : Byte) : s.writeAlu d (sub8 a b false) = .next { s with
    regs := s.regs.set d (diffByte a b false) d.isLt, sreg := diffSreg s.sreg a b false true, pc := s.nextPc 1 } := by
  rw [State.writeAlu, writeResult_eq, sub8_r, putAlu_sub8]

theorem writeAlu_stickyZ_sub8 (s : State) (d : Reg) (a b : Byte) (c z : Bool) :
    s.writeAlu d (stickyZ (sub8 a b c) z) = .next { s with
      regs := s.regs.set d (diffByte a b c) d.isLt, sreg := diffSreg s.sreg a b c z, pc := s.nextPc 1 } := by
  rw [State.writeAlu, writeResult_eq, putAlu_stickyZ_sub8, ← sub8_r]
  rfl

theorem compare_sub8 (s : State) (a b : Byte) : s.compare (sub8 a b false) =
    .next { s with sreg := diffSreg s.sreg a b false true, pc := s.nextPc 1 } := by
  rw [State.compare, advance_eq, putAlu_sub8]
  rfl

theorem compare_stickyZ_sub8 (s : State) (a b : Byte) (c z : Bool) : s.compare (stickyZ (sub8 a b c) z) =
    .next { s with sreg := diffSreg s.sreg a b c z, pc := s.nextPc 1 } := by
  rw [State.compare, advance_eq, putAlu_stickyZ_sub8]
  rfl

/-- Settles O8: five subtractions into Rd and three compares, SBC, SBCI and CPC with the sticky Z of R127. -/
theorem subtractResult : Obligations.SubtractResult := by
  intro s d r k
  exact ⟨writeAlu_sub8 s d _ _, writeAlu_sub8 s d _ _, writeAlu_stickyZ_sub8 s d _ _ _ _,
    writeAlu_stickyZ_sub8 s d _ _ _ _, writeAlu_sub8 s d _ _, compare_sub8 s _ _, compare_stickyZ_sub8 s _ _ _ _,
    compare_sub8 s _ _⟩

/-! ### A 16-bit compare -/

theorem toInt_append (a b : Byte) : (a ++ b : Word).toInt = a.toInt * 256 + b.toNat := by
  have := b.isLt
  rw [word_toInt, append_toNat, byte_toInt]
  split <;> split <;> omega

theorem flagOf_diffSreg_c (x a b : Byte) (c z : Bool) :
    flagOf (diffSreg x a b c z) .c = true ↔ a.toNat < b.toNat + c.toNat := by
  simp [diffSreg, arithSreg]

theorem flagOf_diffSreg_z (x a b : Byte) (c z : Bool) :
    flagOf (diffSreg x a b c z) .z = true ↔ (diffByte a b c).toNat = 0 ∧ z = true := by
  simp [diffSreg, arithSreg]

/-- S = N xor V says that the signed difference is negative, whether or not it fits a byte. -/
theorem flagOf_diffSreg_s (x a b : Byte) (c z : Bool) :
    flagOf (diffSreg x a b c z) .s = true ↔ a.toInt < b.toInt + c.toNat := by
  have value := diffByte_toNat a b c
  have := c.toNat_le
  simp only [diffSreg, arithSreg, flagOf_sregOf_s, overflows8, byte_toInt, Bool.xor_iff_ne]
  rw [ne_eq, Bool.eq_iff_iff]
  simp only [Bool.or_eq_true, decide_eq_true_eq]
  omega

/-- A difference without borrow is zero where the bytes are equal. -/
theorem diffByte_eq_zero_iff (a b : Byte) : (diffByte a b false).toNat = 0 ↔ a = b := by
  have value := diffByte_toNat a b false
  rw [BitVec.toNat_eq]
  simp only [Bool.toNat_false] at value
  omega

/-- The C and Z that a compare leaves, as the next one takes them. -/
theorem compared_c (x a b : Byte) : flagOf (diffSreg x a b false true) .c = decide (a.toNat < b.toNat) :=
  Bool.eq_iff_iff.mpr (by rw [flagOf_diffSreg_c, decide_eq_true_eq]; rfl)

theorem compared_z (x a b : Byte) : flagOf (diffSreg x a b false true) .z = decide (a = b) :=
  Bool.eq_iff_iff.mpr (by rw [flagOf_diffSreg_z, diffByte_eq_zero_iff, decide_eq_true_eq, and_iff_left rfl])

theorem toNat_decide (p : Prop) [Decidable p] : (decide p).toNat = if p then 1 else 0 := by
  split <;> simp [*]

/-- Settles O15: the borrow of the low bytes is the C that the comparison of the high bytes takes, and their zero the Z
that it keeps. -/
theorem sixteenBitCompare : Obligations.SixteenBitCompare := by
  intro s t u dl dh rl rh low high
  obtain rfl := Host.Outcome.next.inj ((compare_sub8 s (s.reg dl) (s.reg rl)).symm.trans low)
  obtain rfl := Host.Outcome.next.inj ((compare_stickyZ_sub8 _ (s.reg dh) (s.reg rh) _ _).symm.trans high)
  have dlow := (s.reg dl).isLt
  have rlow := (s.reg rl).isLt
  simp only [State.flag, compared_c, compared_z]
  rw [flagOf_diffSreg_c, flagOf_diffSreg_s, flagOf_diffSreg_z, toInt_append, toInt_append, toNat_decide]
  refine ⟨?_, ?_, ?_, trivial⟩
  · split <;> omega
  · split <;> omega
  · rw [decide_eq_true_eq]
    refine and_congr_left fun same => ?_
    simp only [same, lt_self_iff_false, decide_false, diffByte_eq_zero_iff]

/-! ### The logical instructions -/

theorem writeLogic_eq (s : State) (d : Reg) (v : Byte) : s.writeLogic d v = .next { s with
    regs := s.regs.set d v d.isLt, sreg := logicSreg s.sreg v, pc := s.nextPc 1 } := by
  rw [State.writeLogic, writeResult_eq, putLogic_eq]

/-- One's complement is subtraction from 0xFF (R143, R146). -/
theorem complement_eq (k : Byte) : 0xFF - k = ~~~k := by
  apply BitVec.eq_of_toNat_eq
  have := k.isLt
  rw [BitVec.toNat_sub, BitVec.toNat_not, show (0xFF : Byte).toNat = 255 from rfl]
  omega

theorem execTst_logic (s : State) (d : Reg) :
    execTst d s = .next { s with sreg := logicSreg s.sreg (s.reg d), pc := s.nextPc 1 } := by
  rw [execTst, advance_eq, putLogic_eq]
  rfl

/-- Settles O11: each writes a logical result into Rd but for TST, which writes the flags alone; CLR is EOR of a
register with itself (`execClr_eq`). -/
theorem logicResult : Obligations.LogicResult := by
  intro s d r k
  refine ⟨writeLogic_eq s d _, writeLogic_eq s d _, writeLogic_eq s d _, writeLogic_eq s d _, writeLogic_eq s d _,
    writeLogic_eq s d _, ?_, execTst_logic s d, ?_⟩
  · rw [← complement_eq]
    exact writeLogic_eq s d _
  · refine (execClr_eq d s).trans ?_
    rw [execEor, BitVec.xor_self]
    exact writeLogic_eq s d 0

/-! ### COM, INC and DEC -/

theorem execCom_eq (s : State) (d : Reg) : execCom d s = .next { s with
    regs := s.regs.set d (~~~s.reg d) d.isLt
    sreg := arithSreg s.sreg (s.flag .h) false (128 ≤ 255 - (s.reg d).toNat) ((s.reg d).toNat = 255) true
    pc := s.nextPc 1 } := by
  have value : (~~~s.reg d).toNat = 255 - (s.reg d).toNat := BitVec.toNat_not
  have zero : 255 - (s.reg d).toNat = 0 ↔ (s.reg d).toNat = 255 := by omega
  rw [execCom, writeResult_eq, complement_eq, putCom_eq, value]
  simp only [zero]
  rfl

theorem sumByte_one (a : Byte) : (sumByte a 1 false).toNat = (a.toNat + 1) % 256 := sumByte_toNat a 1 false

theorem diffByte_one (a : Byte) : (diffByte a 1 false).toNat = (a.toNat + 255) % 256 := by
  have value : ((diffByte a 1 false).toNat : Int) = ((a.toNat : Int) - 1 - 0) % 256 := diffByte_toNat a 1 false
  omega

/-- R147: the one signed number whose successor does not fit is the one before 0x80. -/
theorem inc_overflow (a : Byte) : decide (sumByte a 1 false = 0x80) = overflows8 (a.toInt + 1) := by
  have top : sumByte a 1 false = 0x80 ↔ (sumByte a 1 false).toNat = 128 := BitVec.toNat_eq
  rw [overflows8, byte_toInt, ← Bool.decide_or, decide_eq_decide, top, sumByte_one]
  split <;> omega

/-- R148: the one signed number whose predecessor does not fit is the one after 0x7F. -/
theorem dec_overflow (a : Byte) : decide (diffByte a 1 false = 0x7F) = overflows8 (a.toInt - 1) := by
  have top : diffByte a 1 false = 0x7F ↔ (diffByte a 1 false).toNat = 127 := BitVec.toNat_eq
  rw [overflows8, byte_toInt, ← Bool.decide_or, decide_eq_decide, top, diffByte_one]
  split <;> omega

theorem execInc_eq (s : State) (d : Reg) : execInc d s = .next { s with
    regs := s.regs.set d (sumByte (s.reg d) 1 false) d.isLt
    sreg := arithSreg s.sreg (s.flag .h) (overflows8 ((s.reg d).toInt + 1))
      (128 ≤ ((s.reg d).toNat + 1) % 256) (((s.reg d).toNat + 1) % 256 = 0) (s.flag .c)
    pc := s.nextPc 1 } := by
  have result : s.reg d + 1 = sumByte (s.reg d) 1 false := (BitVec.add_zero _).symm.trans (add8_r (s.reg d) 1 false)
  rw [execInc, writeResult_eq, putStep_eq, result, inc_overflow, sumByte_one]
  rfl

theorem execDec_eq (s : State) (d : Reg) : execDec d s = .next { s with
    regs := s.regs.set d (diffByte (s.reg d) 1 false) d.isLt
    sreg := arithSreg s.sreg (s.flag .h) (overflows8 ((s.reg d).toInt - 1))
      (128 ≤ ((s.reg d).toNat + 255) % 256) ((s.reg d).toNat = 1) (s.flag .c)
    pc := s.nextPc 1 } := by
  have result : s.reg d - 1 = diffByte (s.reg d) 1 false := (BitVec.sub_zero _).symm.trans (sub8_r (s.reg d) 1 false)
  have zero : ((s.reg d).toNat + 255) % 256 = 0 ↔ (s.reg d).toNat = 1 := by omega
  rw [execDec, writeResult_eq, putStep_eq, result, dec_overflow, diffByte_one]
  simp only [zero]
  rfl

/-- Settles O12, each by its result and the signed range it stays in. -/
theorem comIncDecResult : Obligations.ComIncDecResult := fun s d =>
  ⟨execCom_eq s d, execInc_eq s d, execDec_eq s d⟩

/-! ### ADIW and SBIW -/

theorem writeWord_eq (s : State) (d : Reg) (r : Word) (v c : Bool) :
    s.writePair d r (putFlag (putSVNZ s.sreg v (r.getLsbD 15) (r = 0)) .c c) =
      .next { s.setPair d r with sreg := wordSreg s.sreg v r c, pc := s.nextPc 1 } := by
  rw [writePair_eq, putWord_eq]

/-- R125: with a constant below 64, V and C are those of the 16-bit sum. -/
theorem adiw_flags (a : Word) (k : BitVec 6) :
    (!a.getLsbD 15 && (BitVec.ofNat 16 (a.toNat + k.toNat)).getLsbD 15) = overflows16 (a.toInt + k.toNat) ∧
    (!(BitVec.ofNat 16 (a.toNat + k.toNat)).getLsbD 15 && a.getLsbD 15) = decide (65535 < a.toNat + k.toNat) := by
  have small := k.isLt
  simp only [getLsbD_fifteen, BitVec.toNat_ofNat, overflows16, word_toInt, ← Bool.decide_or, ← Bool.decide_and,
    ← decide_not, decide_eq_decide]
  omega

theorem execAdiw_eq (s : State) (d : Reg) (k : BitVec 6) :
    execAdiw d k s = .next { s.setPair d (BitVec.ofNat 16 ((s.pair d).toNat + k.toNat)) with
      sreg := wordSreg s.sreg (overflows16 ((s.pair d).toInt + k.toNat))
        (BitVec.ofNat 16 ((s.pair d).toNat + k.toNat)) (65535 < (s.pair d).toNat + k.toNat)
      pc := s.nextPc 1 } := by
  have result : s.pair d + k.setWidth 16 = BitVec.ofNat 16 ((s.pair d).toNat + k.toNat) := by
    apply BitVec.eq_of_toNat_eq
    have small := k.isLt
    rw [BitVec.toNat_add, BitVec.toNat_ofNat, BitVec.toNat_setWidth]
    omega
  obtain ⟨overflow, carry⟩ := adiw_flags (s.pair d) k
  rw [execAdiw, result, putAdiw, overflow, carry, writeWord_eq]

/-- R125: with a constant below 64, V and C are those of the 16-bit difference. -/
theorem sbiw_flags (a : Word) (k : BitVec 6) :
    (a.getLsbD 15 && !(BitVec.ofInt 16 (a.toNat - k.toNat)).getLsbD 15) = overflows16 (a.toInt - k.toNat) ∧
    ((BitVec.ofInt 16 (a.toNat - k.toNat)).getLsbD 15 && !a.getLsbD 15) = decide (a.toNat < k.toNat) := by
  have small := k.isLt
  simp only [getLsbD_fifteen, BitVec.toNat_ofInt, overflows16, word_toInt, ← Bool.decide_or, ← Bool.decide_and,
    ← decide_not, decide_eq_decide]
  omega

theorem execSbiw_eq (s : State) (d : Reg) (k : BitVec 6) :
    execSbiw d k s = .next { s.setPair d (BitVec.ofInt 16 ((s.pair d).toNat - k.toNat)) with
      sreg := wordSreg s.sreg (overflows16 ((s.pair d).toInt - k.toNat))
        (BitVec.ofInt 16 ((s.pair d).toNat - k.toNat)) ((s.pair d).toNat < k.toNat)
      pc := s.nextPc 1 } := by
  have result : s.pair d - k.setWidth 16 = BitVec.ofInt 16 ((s.pair d).toNat - k.toNat) := by
    apply BitVec.eq_of_toNat_eq
    have small := k.isLt
    rw [BitVec.toNat_sub, BitVec.toNat_ofInt, BitVec.toNat_setWidth]
    omega
  obtain ⟨overflow, borrow⟩ := sbiw_flags (s.pair d) k
  rw [execSbiw, result, putSbiw, overflow, borrow, writeWord_eq]

/-- Settles O10. The two equations hold of every pair, so of the four that R132 and R137 admit. -/
theorem wordAddSubtract : Obligations.WordAddSubtract := fun s d k _ => ⟨execAdiw_eq s d k, execSbiw_eq s d k⟩

end Sys2Proof.Machine
end

section
/-! The multiplies (R126, R152 to R157) and DES (R158). -/

namespace Sys2Proof.Machine

variable {s : State}

/-! ### Products -/

theorem mulUU_eq (a b : Byte) : mulUU a b = BitVec.ofNat 16 (a.toNat * b.toNat) := by
  apply BitVec.eq_of_toNat_eq
  rw [mulUU, BitVec.toNat_mul, BitVec.toNat_setWidth_of_le (by decide), BitVec.toNat_setWidth_of_le (by decide),
    BitVec.toNat_ofNat]

theorem setWidth_eq_ofInt (b : Byte) : b.setWidth 16 = BitVec.ofInt 16 b.toNat := by
  rw [BitVec.ofInt_natCast, BitVec.ofNat_toNat]

theorem mulSS_eq (a b : Byte) : mulSS a b = BitVec.ofInt 16 (a.toInt * b.toInt) := by
  rw [BitVec.ofInt_mul]
  rfl

theorem mulSU_eq (a b : Byte) : mulSU a b = BitVec.ofInt 16 (a.toInt * b.toNat) := by
  rw [BitVec.ofInt_mul, mulSU, setWidth_eq_ofInt]
  rfl

/-- Neither factor of a power of two is above 128, so a product of two bytes is not 32768. -/
theorem mul_ne_32768 (a b : Byte) : a.toNat * b.toNat ≠ 32768 := by
  have factor (x : Byte) (h : x.toNat ∣ 2 ^ 15) : x.toNat ≤ 128 := by
    obtain ⟨k, -, value⟩ := (Nat.dvd_prime_pow Nat.prime_two).mp h
    have small : k < 8 := (Nat.pow_lt_pow_iff_right (by decide)).mp (value ▸ x.isLt)
    exact value ▸ Nat.pow_le_pow_right (by decide) (Nat.le_of_lt_succ small)
  intro h
  have := Nat.mul_le_mul (factor a ⟨_, h.symm⟩) (factor b ⟨a.toNat, by rw [mul_comm, h]; rfl⟩)
  omega

/-- What the six instructions need of a product `p`: it is the word `v`, twice it is `twice`, its bit 15 is `c`, and `z`
says whether either of the two is zero. -/
structure IsProduct (p v twice : Word) (c z : Bool) : Prop where
  value : p = v
  doubled : p <<< 1 = twice
  carry : p.getLsbD 15 = c
  zero : decide (v = 0) = z
  zeroDoubled : decide (twice = 0) = z

theorem isProduct_unsigned {p : Word} {n : Nat} (value : p = BitVec.ofNat 16 n) (fits : n < 65536)
    (notHalf : n ≠ 32768) :
    IsProduct p (BitVec.ofNat 16 n) (BitVec.ofNat 16 (2 * n)) (32768 ≤ n) (n = 0) where
  value := value
  doubled := by
    apply BitVec.eq_of_toNat_eq
    rw [value, BitVec.toNat_shiftLeft, BitVec.toNat_ofNat, BitVec.toNat_ofNat, Nat.shiftLeft_eq]
    omega
  carry := by rw [value, getLsbD_fifteen, BitVec.toNat_ofNat, Nat.mod_eq_of_lt fits]
  zero := by
    rw [decide_eq_zero, BitVec.toNat_ofNat, decide_eq_decide]
    omega
  zeroDoubled := by
    rw [decide_eq_zero, BitVec.toNat_ofNat, decide_eq_decide]
    omega

theorem isProduct_signed {p : Word} {n : Int} (value : p = BitVec.ofInt 16 n) (range : n.natAbs < 32768) :
    IsProduct p (BitVec.ofInt 16 n) (BitVec.ofInt 16 (2 * n)) (n < 0) (n = 0) where
  value := value
  doubled := by
    apply BitVec.eq_of_toNat_eq
    rw [value, BitVec.toNat_shiftLeft, BitVec.toNat_ofInt, BitVec.toNat_ofInt, Nat.shiftLeft_eq]
    omega
  carry := by
    rw [value, getLsbD_fifteen, BitVec.toNat_ofInt, decide_eq_decide]
    omega
  zero := by
    rw [decide_eq_zero, BitVec.toNat_ofInt, decide_eq_decide]
    omega
  zeroDoubled := by
    rw [decide_eq_zero, BitVec.toNat_ofInt, decide_eq_decide]
    omega

theorem mulUU_isProduct (a b : Byte) : IsProduct (mulUU a b) (BitVec.ofNat 16 (a.toNat * b.toNat))
    (BitVec.ofNat 16 (2 * (a.toNat * b.toNat))) (32768 ≤ a.toNat * b.toNat) (a.toNat * b.toNat = 0) :=
  isProduct_unsigned (mulUU_eq a b) (Nat.mul_lt_mul'' a.isLt b.isLt) (mul_ne_32768 a b)

/-- A signed byte is of magnitude at most 128. -/
theorem natAbs_toInt_le (a : Byte) : a.toInt.natAbs ≤ 128 := by
  rw [byte_toInt]
  split <;> omega

theorem mulSS_isProduct (a b : Byte) : IsProduct (mulSS a b) (BitVec.ofInt 16 (a.toInt * b.toInt))
    (BitVec.ofInt 16 (2 * (a.toInt * b.toInt))) (a.toInt * b.toInt < 0) (a.toInt * b.toInt = 0) := by
  have bound := Nat.mul_le_mul (natAbs_toInt_le a) (natAbs_toInt_le b)
  rw [← Int.natAbs_mul] at bound
  exact isProduct_signed (mulSS_eq a b) (by omega)

theorem mulSU_isProduct (a b : Byte) : IsProduct (mulSU a b) (BitVec.ofInt 16 (a.toInt * b.toNat))
    (BitVec.ofInt 16 (2 * (a.toInt * b.toNat))) (a.toInt * b.toNat < 0) (a.toInt * (b.toNat : Int) = 0) := by
  have bound := Nat.mul_le_mul (natAbs_toInt_le a) (Nat.le_of_lt_succ b.isLt)
  rw [← Int.natAbs_natCast b.toNat, ← Int.natAbs_mul] at bound
  exact isProduct_signed (mulSU_eq a b) (by omega)

/-! ### The six instructions -/

theorem writeProduct_eq (s : State) (p r : Word) : s.writeProduct p r = .next { s.setPair 0 r with
    sreg := productSreg s.sreg (p.getLsbD 15) (r = 0), pc := s.nextPc 1 } := by
  rw [State.writeProduct, writePair_eq, putMul_eq]

section
variable {p v twice : Word} {c z : Bool}

theorem writeProduct_whole (h : IsProduct p v twice c z) : s.writeProduct p p =
    .next { s.setPair 0 v with sreg := productSreg s.sreg c z, pc := s.nextPc 1 } := by
  rw [writeProduct_eq, h.carry, h.value, h.zero]

/-- The fractional forms: C is still that of the product before the shift (R126). -/
theorem writeProduct_shifted (h : IsProduct p v twice c z) : s.writeProduct p (p <<< 1) =
    .next { s.setPair 0 twice with sreg := productSreg s.sreg c z, pc := s.nextPc 1 } := by
  rw [writeProduct_eq, h.carry, h.doubled, h.zeroDoubled]

end

/-- Settles O13: three products, each written whole and shifted. -/
theorem multiplyResult : Obligations.MultiplyResult := by
  intro s d r
  have uu := mulUU_isProduct (s.reg d) (s.reg r)
  have ss := mulSS_isProduct (s.reg d) (s.reg r)
  have su := mulSU_isProduct (s.reg d) (s.reg r)
  exact ⟨writeProduct_whole uu, writeProduct_whole ss, writeProduct_whole su, writeProduct_shifted uu,
    writeProduct_shifted ss, writeProduct_shifted su⟩

/-! ### DES -/

/-- A digit of a number is the one it was made of. -/
theorem ofDigits_div_pow {l : List Nat} (small : ∀ x ∈ l, x < 256) {j : Nat} (h : j < l.length) :
    Nat.ofDigits 256 l / 256 ^ j % 256 = l[j] := by
  induction l generalizing j with
  | nil => exact absurd h (Nat.not_lt_zero j)
  | cons x l ih =>
    have below : x < 256 := small x List.mem_cons_self
    rw [Nat.ofDigits_cons]
    cases j with
    | zero => simp [Nat.mod_eq_of_lt below]
    | succ j =>
      rw [pow_succ', ← Nat.div_div_eq_div_mul, Nat.add_mul_div_left _ _ (by decide), Nat.div_eq_of_lt below, zero_add,
        ih (fun y hy => small y (List.mem_cons_of_mem x hy)) (Nat.lt_of_succ_lt_succ h), List.getElem_cons_succ]

theorem append_word_toNat {w : Nat} (x : BitVec w) (v : Word) : (x ++ v).toNat = x.toNat * 65536 + v.toNat := by
  rw [BitVec.toNat_append, ← Nat.shiftLeft_add_eq_or_of_lt v.isLt, Nat.shiftLeft_eq]

theorem pair_toNat (s : State) (d : Reg) : (s.pair d).toNat = (s.reg (highOf d)).toNat * 256 + (s.reg d).toNat :=
  append_toNat _ _

/-- A pair of registers below a number adds two digits. -/
theorem append_pair_toNat {w : Nat} {x : BitVec w} {l : List Nat} (h : x.toNat = Nat.ofDigits 256 l) (d : Reg) :
    (x ++ s.pair d).toNat = Nat.ofDigits 256 ((s.reg d).toNat :: (s.reg (highOf d)).toNat :: l) := by
  rw [append_word_toNat, pair_toNat, Nat.ofDigits_cons, Nat.ofDigits_cons, h]
  omega

/-- The block is the number whose digits to base 256 are R0 to R15. -/
theorem block_toNat (s : State) :
    s.block.toNat = Nat.ofDigits 256 ((List.range 16).map fun i => (s.reg (regOf i)).toNat) := by
  have top : (s.pair 14).toNat = Nat.ofDigits 256 [(s.reg 14).toNat, (s.reg (highOf 14)).toNat] := by
    rw [pair_toNat, Nat.ofDigits_cons, Nat.ofDigits_singleton]
    omega
  exact append_pair_toNat (append_pair_toNat (append_pair_toNat (append_pair_toNat (append_pair_toNat
    (append_pair_toNat (append_pair_toNat top 12) 10) 8) 6) 4) 2) 0

/-- R158: R0 is the least significant byte of the block, R15 the most significant. -/
theorem block_byte (s : State) {e : Reg} (low : e.val < 16) : s.block.toNat / 256 ^ e.val % 256 = (s.reg e).toNat := by
  rw [block_toNat, ofDigits_div_pow (j := e.val) ?_ (by simpa using low)]
  · simp only [List.getElem_map, List.getElem_range, regOf_eq (d := e) rfl]
  · intro x member
    obtain ⟨i, -, rfl⟩ := List.mem_map.mp member
    exact (s.reg (regOf i)).isLt

theorem reg_setBlock (s : State) (v : BitVec 128) (e : Reg) :
    (s.setBlock v).reg e = if e.val < 16 then (v >>> (8 * e.val)).setWidth 8 else s.reg e := by
  simp only [State.reg, State.setBlock, Vector.getElem_ofFn]

/-- Settles O14: the block is read from R15:R0 and the result written back byte by byte. -/
theorem desReplacesBlock : Obligations.DesReplacesBlock := by
  intro s k
  refine ⟨(s.setBlock _).advance 1, s.block, _, rfl, rfl, fun e low => ⟨block_byte s low, ?_⟩, fun e high => ?_, ?_⟩
  · rw [reg_advance, reg_setBlock, if_pos low, BitVec.toNat_setWidth, BitVec.toNat_ushiftRight,
      Nat.shiftRight_eq_div_pow, pow_mul]
    rfl
  · rw [reg_advance, reg_setBlock, if_neg (Nat.not_lt.mpr high)]
  · rw [advance_eq]
    simp only [State.setBlock, State.nextPc]

end Sys2Proof.Machine
end

section
/-! Register moves, calls on any stack, and the loads and stores that update their pointer (R120, R151, R172, R178 to
R181, R220, R222 to R247, R276). -/

namespace Sys2Proof.Machine

variable {s : State}

/-! ### Moves -/

theorem next_setReg_advance (s : State) (d : Reg) (v : Byte) :
    (.next ((s.setReg d v).advance 1) : Res State) = .next { s with regs := s.regs.set d v d.isLt, pc := s.nextPc 1 } :=
  congrArg Host.Outcome.next (setReg_advance s d v)

theorem execMovw_eq (s : State) (d r : Reg) :
    execMovw d r s = .next { s.setPair d (s.pair r) with pc := s.nextPc 1 } := by
  rw [execMovw, advance_eq]
  rfl

/-- The two nibbles exchanged, as a number (R276). -/
theorem swap_eq (a : Byte) : a <<< 4 ||| a >>> 4 = BitVec.ofNat 8 (a.toNat % 16 * 16 + a.toNat / 16) := by
  have disjoint : a <<< 4 &&& a >>> 4 = 0#8 := by
    refine BitVec.eq_of_getLsbD_eq fun j _ => ?_
    rw [BitVec.getLsbD_and, BitVec.getLsbD_shiftLeft, BitVec.getLsbD_ushiftRight]
    rcases Nat.lt_or_ge j 4 with low | high
    · simp [low]
    · simp [BitVec.getLsbD_of_ge a (4 + j) (by omega)]
  rw [← BitVec.add_eq_or_of_and_eq_zero _ _ disjoint]
  apply BitVec.eq_of_toNat_eq
  rw [BitVec.toNat_add, BitVec.toNat_shiftLeft, BitVec.toNat_ushiftRight, BitVec.toNat_ofNat, Nat.shiftLeft_eq,
    Nat.shiftRight_eq_div_pow]
  omega

/-- Settles O26: four write one register, MOVW a pair. -/
theorem registerMoves : Obligations.RegisterMoves := by
  intro s d r k
  refine ⟨next_setReg_advance s d _, execMovw_eq s d r, next_setReg_advance s d k, next_setReg_advance s d _, ?_⟩
  rw [← swap_eq]
  exact next_setReg_advance s d _

/-! ### Calls -/

/-- A call goes on from its push, and stops where the push stops. -/
theorem callTo_eq (s : State) (words : Nat) (target : Int) : s.callTo words target =
    (s.pushRet (s.nextPc words)).andThen fun t => .next { t with pc := pcAt t.cfg target } := by
  simp only [State.callTo, wrapPc_eq, State.nextPc, jump_eq]

theorem execIcall_eq (s : State) :
    execIcall s = s.callTo 1 ((s.reg 31).toNat * 256 + (s.reg 30).toNat) := by
  rw [execIcall, ptr_z_toNat]
  push_cast
  rfl

theorem execEicall_eq (s : State) : execEicall s =
    s.callTo 1 (s.eind.toNat % 64 * 65536 + (s.reg 31).toNat * 256 + (s.reg 30).toNat) := by
  rw [execEicall, State.eindZ, ptr_z_toNat, ← Nat.add_assoc]
  push_cast
  rfl

/-- Settles O21: each call is `callTo` its target, which is read from the state before the push; the push keeps the
device. -/
theorem callsOnAnyStack : Obligations.CallsOnAnyStack := by
  intro s k a calls
  have called (i : Instr) (target : Int) (h : exec i s = s.callTo i.words target) : calls i (pcAt s.cfg target) := by
    rw [callTo_eq] at h
    refine ⟨fun t pushed => ?_, fun f refused => ?_⟩
    · rw [h, pushed, Res.andThen_next, (pushRet_beyond pushed).cfg]
    · rw [h, refused, Res.andThen_refused]
  exact ⟨called _ _ rfl, called _ _ (execIcall_eq s), called _ _ (execEicall_eq s), called _ _ rfl⟩

/-! ### Loads and stores that update their pointer -/

theorem setPtrAddr_nextPc (s : State) (p : Ptr) (n words : Nat) : (s.setPtrAddr p n).nextPc words = s.nextPc words :=
  (congrArg (State.nextPc · words) (setPtrAddr_only s p n) :)

/-- What stands at an address depends on the device alone. -/
theorem mapped_setPtrAddr (s : State) (p : Ptr) (n a : Nat) : (s.setPtrAddr p n).mapped a ↔ s.mapped a := by
  rw [State.mapped, State.mapped, (setPtrAddr_keepsMemory s p n).cfg]

section
variable {p : Ptr}

theorem loadInc_mapped (h : s.mapped (s.ptrAddr p)) (d : Reg) : ∃ v t, s.memRead (s.ptrAddr p) = .next (v, t) ∧
    s.loadInc p d = .next { (t.setReg d v).setPtrAddr p (s.incAddr p) with pc := s.nextPc 1 } := by
  obtain ⟨v, t, read⟩ := memRead_mapped h
  refine ⟨v, t, read, ?_⟩
  simp only [State.loadInc, read, Res.andThen_next, advance_eq, setPtrAddr_nextPc]
  rw [← (memRead_only read).nextPc]
  rfl

theorem loadInc_unmapped (h : ¬s.mapped (s.ptrAddr p)) (d : Reg) :
    s.loadInc p d = .refused (.unmappedData (s.ptrAddr p)) := by
  rw [State.loadInc, memRead_unmapped h, Res.andThen_refused]

theorem loadDec_mapped (h : s.mapped (s.decAddr p)) (d : Reg) :
    ∃ v t, (s.setPtrAddr p (s.decAddr p)).memRead (s.decAddr p) = .next (v, t) ∧
      s.loadDec p d = .next { t.setReg d v with pc := s.nextPc 1 } := by
  obtain ⟨v, t, read, loaded⟩ := loadFrom_mapped ((mapped_setPtrAddr s p (s.decAddr p) _).mpr h) d 1
  exact ⟨v, t, read, by rw [State.loadDec, loaded, setPtrAddr_nextPc]; rfl⟩

theorem loadDec_unmapped (h : ¬s.mapped (s.decAddr p)) (d : Reg) :
    s.loadDec p d = .refused (.unmappedData (s.decAddr p)) :=
  loadFrom_unmapped ((mapped_setPtrAddr s p _ _).not.mpr h) d 1

theorem storeInc_mapped (h : s.mapped (s.ptrAddr p)) (r : Reg) : ∃ t, s.memWrite (s.ptrAddr p) (s.reg r) = .next t ∧
    s.storeInc p r = .next { t.setPtrAddr p (s.incAddr p) with pc := s.nextPc 1 } := by
  obtain ⟨t, written⟩ := memWrite_mapped h (s.reg r)
  refine ⟨t, written, ?_⟩
  rw [State.storeInc, written, Res.andThen_next, advance_eq, setPtrAddr_nextPc, (memWrite_beyond written).nextPc]

theorem storeInc_unmapped (h : ¬s.mapped (s.ptrAddr p)) (r : Reg) :
    s.storeInc p r = .refused (.unmappedData (s.ptrAddr p)) := by
  rw [State.storeInc, memWrite_unmapped h, Res.andThen_refused]

theorem storeDec_mapped (h : s.mapped (s.decAddr p)) (r : Reg) :
    ∃ t, (s.setPtrAddr p (s.decAddr p)).memWrite (s.decAddr p) (s.reg r) = .next t ∧
      s.storeDec p r = .next { t with pc := s.nextPc 1 } := by
  obtain ⟨t, written, stored⟩ := storeTo_mapped ((mapped_setPtrAddr s p (s.decAddr p) _).mpr h) (s.reg r) 1
  exact ⟨t, written, by rw [State.storeDec, stored, setPtrAddr_nextPc]⟩

theorem storeDec_unmapped (h : ¬s.mapped (s.decAddr p)) (r : Reg) :
    s.storeDec p r = .refused (.unmappedData (s.decAddr p)) :=
  storeTo_unmapped ((mapped_setPtrAddr s p _ _).not.mpr h) (s.reg r) 1

end

/-- Settles O30: off its pointer a form is `loadInc` or `loadDec`. -/
theorem loadUpdateResult : Obligations.LoadUpdateResult := by
  intro s p d off inc dec
  have incremented : exec inc s = s.loadInc p d := by
    cases p <;> exact offPointerOr_off off _ _
  have decremented : exec dec s = s.loadDec p d := by
    cases p <;> exact offPointerOr_off off _ _
  rw [incremented, decremented]
  exact ⟨fun h => loadInc_mapped h d, fun h => loadInc_unmapped h d, fun h => loadDec_mapped h d,
    fun h => loadDec_unmapped h d⟩

/-- Settles O32: off its pointer a form is `storeInc` or `storeDec`. -/
theorem storeUpdateResult : Obligations.StoreUpdateResult := by
  intro s p r off inc dec
  have incremented : exec inc s = s.storeInc p r := by
    cases p <;> exact offPointerOr_off off _ _
  have decremented : exec dec s = s.storeDec p r := by
    cases p <;> exact offPointerOr_off off _ _
  rw [incremented, decremented]
  exact ⟨fun h => storeInc_mapped h r, fun h => storeInc_unmapped h r, fun h => storeDec_mapped h r,
    fun h => storeDec_unmapped h r⟩

end Sys2Proof.Machine
end

section
/-! Jumps, the branches after a compare, and the skips (R170, R171, R174 to R177, R184 to R191, R194 to R203, R212). -/

namespace Sys2Proof.Machine

/-! ### Jumps -/

/-- EIND:Z is the 22-bit number of R39. -/
theorem eindZ_eq (s : State) :
    s.eindZ = s.eind.toNat % 64 * 65536 + (s.reg 31).toNat * 256 + (s.reg 30).toNat := by
  rw [State.eindZ, ptr_z_toNat, ← Nat.add_assoc]

/-- Settles O16: each is a jump to its target. -/
theorem jumpTargets : Obligations.JumpTargets := by
  intro s k a
  have jumps (n : Int) : (.next (s.jump n) : Res State) = .next { s with pc := pcAt s.cfg n } :=
    congrArg Host.Outcome.next (jump_eq s n)
  refine ⟨jumps (s.pc.toNat + 1 + k.toInt), (jumps (s.ptr .z).toNat).trans ?_, (jumps s.eindZ).trans ?_,
    jumps a.toNat⟩
  · rw [ptr_z_toNat]
    push_cast
    rfl
  · rw [eindZ_eq]
    push_cast
    rfl

/-! ### Branches after a compare -/

/-- C, S and Z after a compare are the unsigned, the signed and the equality comparison of the two bytes; S also where
the signed difference overflows. -/
theorem compared_flags (x a b : Byte) :
    (flagOf (diffSreg x a b false true) .c = true ↔ a.toNat < b.toNat) ∧
    (flagOf (diffSreg x a b false true) .s = true ↔ a.toInt < b.toInt) ∧
    (flagOf (diffSreg x a b false true) .z = true ↔ a = b) := by
  refine ⟨flagOf_diffSreg_c x a b false true, ?_, ?_⟩
  · rw [flagOf_diffSreg_s, Bool.toNat_false, Nat.cast_zero, add_zero]
  · rw [compared_z, decide_eq_true_eq]

/-- Where a branch goes, by the proposition that its test decides (R170, R192). -/
theorem branchIf_goes (t : State) {cond : Bool} (k : BitVec 7) {p : Prop} (test : cond = true ↔ p) :
    ∃ u, t.branchIf cond k = .next u ∧
      (p → u.pc = pcAt t.cfg (t.pc.toNat + 1 + k.toInt)) ∧ (¬p → u.pc = t.nextPc 1) :=
  ⟨_, branchIf_eq t cond k, fun holds => if_pos (test.mpr holds), fun fails => if_neg (test.not.mpr fails)⟩

/-- A test for a clear bit decides the contrary of the test for a set one. -/
theorem clear_iff_of_set_iff {bit : Bool} {p : Prop} (test : bit = true ↔ p) : (!bit) = true ↔ ¬p := by
  rw [Bool.not_eq_true', ← Bool.not_eq_true, test]

/-- Settles O18: after CP the flags C, S and Z are the unsigned, the signed and the equality comparison, and each of the
six branches tests one of them, set or clear. -/
theorem branchesAfterCompare : Obligations.BranchesAfterCompare := by
  intro s t d r k compared
  obtain rfl := Host.Outcome.next.inj ((compare_sub8 s (s.reg d) (s.reg r)).symm.trans compared)
  obtain ⟨lower, less, equal⟩ := compared_flags s.sreg (s.reg d) (s.reg r)
  exact ⟨branchIf_goes _ k lower, branchIf_goes _ k ((clear_iff_of_set_iff lower).trans not_lt),
    branchIf_goes _ k less, branchIf_goes _ k ((clear_iff_of_set_iff less).trans not_lt),
    branchIf_goes _ k equal, branchIf_goes _ k (clear_iff_of_set_iff equal)⟩

/-! ### Skips -/

/-- Settles O19: each of the five is `skip` on its test, SBIC and SBIS in the state that their read of the location
left, which has the device, pc and program memory of the one before. -/
theorem skipResult : Obligations.SkipResult := by
  intro s d r a b next v skips
  have skipped (i : Instr) {t : State} {cond : Bool} {p : Prop} (read : OnlyEnvRead s t) (test : cond = true ↔ p)
      (done : exec i s = t.skip cond) : skips i t p := by
    obtain ⟨ioInputs, envDraws, envTrace, rfl⟩ :
      ∃ ioInputs envDraws envTrace, t = { s with ioInputs, envDraws, envTrace } := ⟨_, _, _, read⟩
    refine ⟨fun fails => ?_, fun holds inside => ?_, fun holds outside => ?_⟩
    · rw [done, Bool.eq_false_of_not_eq_true (test.not.mpr fails)]
      exact skip_not _
    · rw [done, test.mpr holds]
      exact skip_inside inside
    · rw [done, test.mpr holds]
      exact skip_outside outside
  have isSet (x : Byte) : x.getLsbD b.toNat = true ↔ x.toNat / 2 ^ b.toNat % 2 = 1 := by
    rw [getLsbD_eq_div, decide_eq_true_eq]
  have isClear (x : Byte) : (!x.getLsbD b.toNat) = true ↔ x.toNat / 2 ^ b.toNat % 2 = 0 := by
    rw [clear_iff_of_set_iff (isSet x), ← ne_eq, Nat.mod_two_ne_one]
  have read := ioRead_only s a.toNat
  exact ⟨skipped _ (.refl s) decide_eq_true_iff rfl, skipped _ (.refl s) (isClear _) rfl,
    skipped _ (.refl s) (isSet _) rfl, skipped _ read (isClear _) rfl, skipped _ read (isSet _) rfl⟩

end Sys2Proof.Machine
end

section
/-! The stack wherever in the data space it stands: PUSH, POP, the returns, and the interrupt entry that is refused
(R35, R172, R173, R182, R183, R259, R260, R327, R329). -/

namespace Sys2Proof.Machine

variable {s t : State}

/-! ### One byte -/

/-- What stands at an address depends on the device alone. -/
theorem mapped_congr (device : t.cfg = s.cfg) (a : Nat) : t.mapped a ↔ s.mapped a := by
  rw [State.mapped, State.mapped, device]

theorem push8_mapped (h : s.mapped s.sp.toNat) (v : Byte) : ∃ t, s.memWrite s.sp.toNat v = .next t ∧
    s.push8 v = .next { t with sp := spAt s.cfg (t.sp.toNat - 1) } := by
  obtain ⟨t, written⟩ := memWrite_mapped h v
  refine ⟨t, written, ?_⟩
  rw [State.push8, written, Res.andThen_next, setSp_eq, (memWrite_beyond written).cfg]

theorem push8_unmapped (h : ¬s.mapped s.sp.toNat) (v : Byte) : s.push8 v = .refused (.unmappedData s.sp.toNat) := by
  rw [State.push8, memWrite_unmapped h, Res.andThen_refused]

/-- A pop is a read at SP + 1, with SP at it. -/
theorem pop8_eq (s : State) : s.pop8 =
    State.memRead { s with sp := spAt s.cfg (s.sp.toNat + 1) } (spAt s.cfg (s.sp.toNat + 1)).toNat := by
  rw [State.pop8, setSp_eq]

/-! ### PUSH and POP -/

theorem execPush_mapped (h : s.mapped s.sp.toNat) (r : Reg) : ∃ t, s.memWrite s.sp.toNat (s.reg r) = .next t ∧
    execPush r s = .next { t with sp := spAt s.cfg (t.sp.toNat - 1), pc := s.nextPc 1 } := by
  obtain ⟨t, written, pushed⟩ := push8_mapped h (s.reg r)
  refine ⟨t, written, ?_⟩
  rw [execPush, pushed, Res.andThen_next, advance_eq, ← (memWrite_beyond written).nextPc]
  rfl

theorem execPush_unmapped (h : ¬s.mapped s.sp.toNat) (r : Reg) :
    execPush r s = .refused (.unmappedData s.sp.toNat) := by
  rw [execPush, push8_unmapped h, Res.andThen_refused]

/-- POP loads its register from the address above SP, in the state with SP at it. -/
theorem execPop_eq (s : State) (d : Reg) : execPop d s =
    State.loadFrom { s with sp := spAt s.cfg (s.sp.toNat + 1) } d (spAt s.cfg (s.sp.toNat + 1)).toNat 1 := by
  rw [execPop, pop8_eq, State.loadFrom]

/-- Settles O24: PUSH by its push, POP as a load of one word from the address above SP. -/
theorem pushPopResult : Obligations.PushPopResult := by
  intro s r above
  refine ⟨fun h => execPush_mapped h r, fun h => execPush_unmapped h r, fun h => ?_, fun h => ?_⟩
  · obtain ⟨v, t, read, loaded⟩ := loadFrom_mapped (s := { s with sp := above }) h r 1
    exact ⟨v, t, read, (execPop_eq s r).trans loaded⟩
  · exact (execPop_eq s r).trans (loadFrom_unmapped (s := { s with sp := above }) h r 1)

/-- A pop straight after a push on a stack in SRAM answers the byte pushed, with SP where it was; pc may have moved in
between. -/
theorem pop8_pushed (room : s.roomBelow 1) (form : Memory.wf sramBlank s.sram) (v : Byte) (pc : PAddr) :
    State.pop8 { s with
        sram := memPut sramBlank s.sram s.sp.toNat v, sp := BitVec.ofNat 16 (s.sp.toNat - 1), pc } =
      .next (v, { s with sram := memPut sramBlank s.sram s.sp.toNat v, pc }) := by
  have pos := sp_pos_of_roomBelow room
  obtain ⟨sound, width, low, high⟩ := room
  have lower : (BitVec.ofNat 16 (s.sp.toNat - 1)).toNat = s.sp.toNat - 1 := toNat_ofNat_sp (Nat.sub_le _ _)
  have popped := pop8_sram (s := { s with
    sram := memPut sramBlank s.sram s.sp.toNat v, sp := BitVec.ofNat 16 (s.sp.toNat - 1), pc })
  simp only [State.bytesAbove, State.sramAt, lower, Nat.sub_add_cancel pos, memGet_memPut_same form,
    BitVec.ofNat_toNat, BitVec.setWidth_eq] at popped
  exact popped ⟨sound, width, by omega, high⟩

theorem execPush_sram (room : s.roomBelow 1) (r : Reg) : execPush r s = .next { s with
    sram := memPut sramBlank s.sram s.sp.toNat (s.reg r), sp := BitVec.ofNat 16 (s.sp.toNat - 1)
    pc := s.nextPc 1 } := by
  rw [execPush, push8_sram room, Res.andThen_next, advance_eq]
  rfl

theorem execPop_of_pop8 {v : Byte} (popped : s.pop8 = .next (v, t)) (d : Reg) :
    execPop d s = .next { t with regs := t.regs.set d v d.isLt, pc := t.nextPc 1 } := by
  simp only [execPop, popped, Res.andThen_next, setReg_advance]

/-- Settles O25: the push writes at the SP before it and the pop reads there (`pop8_pushed`). -/
theorem popUndoesPush : Obligations.PopUndoesPush := fun s r d room form =>
  ⟨_, _, execPush_sram room r, execPop_of_pop8 (pop8_pushed room form (s.reg r) _) d, rfl, rfl,
    fun _ other => memGet_memPut_other other⟩

/-! ### Return addresses -/

theorem spAt_toNat (c : Config) (n : Int) : ((spAt c n).toNat : Int) = n % 2 ^ min c.spBits 16 := by
  rw [spAt, BitVec.toNat_ofInt, Int.toNat_of_nonneg (Int.emod_nonneg _ (by decide))]
  rcases Nat.le_total c.spBits 16 with narrow | wide
  · rw [min_eq_left narrow]
    refine Int.emod_eq_of_lt (Int.emod_nonneg _ (by positivity)) ((Int.emod_lt_of_pos _ (by positivity)).trans_le ?_)
    exact_mod_cast Nat.pow_le_pow_right (by decide) narrow
  · rw [min_eq_right wide]
    exact Int.emod_emod_of_dvd n (by exact_mod_cast pow_dvd_pow 2 wide)

/-- One more than a stack pointer value is that of the next number, also past the end of its width (R35). -/
theorem spAt_succ (c : Config) (n : Int) : spAt c ((spAt c n).toNat + 1) = spAt c (n + 1) := by
  apply BitVec.eq_of_toNat_eq
  have value : ((spAt c ((spAt c n).toNat + 1)).toNat : Int) = (spAt c (n + 1)).toNat := by
    rw [spAt_toNat, spAt_toNat, spAt_toNat, Int.emod_add_emod]
  exact_mod_cast value

/-- The address of the byte `j` places above SP (R35, R173). -/
def State.slot (s : State) (j : Nat) : Word := spAt s.cfg (s.sp.toNat + j)

/-- `t` is `s` after `j` pops, as far as the next pop asks: the device, and where SP goes next. -/
structure Popped (s t : State) (j : Nat) : Prop where
  device : t.cfg = s.cfg
  next : spAt s.cfg (t.sp.toNat + 1) = s.slot (j + 1)

theorem Popped.none (s : State) : Popped s s 0 := ⟨rfl, rfl⟩

section
variable {j : Nat}

theorem Popped.pop8_eq (h : Popped s t j) :
    t.pop8 = State.memRead { t with sp := s.slot (j + 1) } (s.slot (j + 1)).toNat := by
  rw [Machine.pop8_eq, h.device, h.next]

/-- The next pop reads the next slot where that is mapped, and the one after it follows. -/
theorem Popped.pop8_mapped (h : Popped s t j) (here : s.mapped (s.slot (j + 1)).toNat) : ∃ v u,
    State.memRead { t with sp := s.slot (j + 1) } (s.slot (j + 1)).toNat = .next (v, u) ∧
    t.pop8 = .next (v, u) ∧ Popped s u (j + 1) := by
  obtain ⟨v, u, read⟩ := memRead_mapped (s := { t with sp := s.slot (j + 1) }) ((mapped_congr h.device _).mpr here)
  have only := memRead_only read
  refine ⟨v, u, read, h.pop8_eq.trans read, ?_, ?_⟩
  · rw [only]
    exact h.device
  · rw [only]
    change spAt s.cfg ((s.slot (j + 1)).toNat + 1) = _
    rw [State.slot, spAt_succ, State.slot, add_assoc]
    push_cast
    rfl

theorem Popped.pop8_unmapped (h : Popped s t j) (off : ¬s.mapped (s.slot (j + 1)).toNat) :
    t.pop8 = .refused (.unmappedData (s.slot (j + 1)).toNat) :=
  h.pop8_eq.trans (memRead_unmapped ((mapped_congr (t := { t with sp := _ }) h.device _).not.mpr off))

end

/-! ### The popped return address -/

section
variable {v1 v2 v3 : Byte} {t1 t2 t3 : State} {f : Refusal}

theorem popRet_two (size : retBytes s.cfg = 2) (first : s.pop8 = .next (v1, t1)) (second : t1.pop8 = .next (v2, t2)) :
    ∃ a : BitVec 24, a.toNat = v1.toNat * 256 + v2.toNat ∧ s.popRet = .next (a, t2) := by
  refine ⟨(0 : Byte) ++ v1 ++ v2, ?_, ?_⟩
  · rw [append_byte_toNat, append_byte_toNat, show (0 : Byte).toNat = 0 from rfl, Nat.zero_mul, Nat.zero_add]
  · simp [State.popRet, State.popHigh, size, first, second]

theorem popRet_three (size : retBytes s.cfg = 3) (first : s.pop8 = .next (v1, t1)) (second : t1.pop8 = .next (v2, t2))
    (third : t2.pop8 = .next (v3, t3)) :
    ∃ a : BitVec 24, a.toNat = v1.toNat * 65536 + v2.toNat * 256 + v3.toNat ∧ s.popRet = .next (a, t3) := by
  refine ⟨v1 ++ v2 ++ v3, ?_, ?_⟩
  · rw [append_byte_toNat, append_byte_toNat]
    omega
  · simp [State.popRet, State.popHigh, size, first, second, third]

theorem popRet_refused_first (first : s.pop8 = .refused f) : s.popRet = .refused f := by
  rcases retBytes_cases s.cfg with size | size <;> simp [State.popRet, State.popHigh, size, first]

theorem popRet_refused_second (first : s.pop8 = .next (v1, t1)) (second : t1.pop8 = .refused f) :
    s.popRet = .refused f := by
  rcases retBytes_cases s.cfg with size | size <;> simp [State.popRet, State.popHigh, size, first, second]

theorem popRet_refused_third (size : retBytes s.cfg = 3) (first : s.pop8 = .next (v1, t1))
    (second : t1.pop8 = .next (v2, t2)) (third : t2.pop8 = .refused f) : s.popRet = .refused f := by
  simp [State.popRet, State.popHigh, size, first, second, third]

end

/-! ### RET and RETI -/

/-- I alone is set (R25). -/
theorem putFlag_i_true (x : Byte) : putFlag x .i true = x ||| 0x80 := rfl

theorem returns_of_popRet {a : BitVec 24} {n : Nat} {u : State} (popped : s.popRet = .next (a, u))
    (value : a.toNat = n) (device : u.cfg = s.cfg) :
    exec .ret s = .next { u with pc := pcAt s.cfg n } ∧
    exec .reti s = .next { u with pc := pcAt s.cfg n, sreg := u.sreg ||| 0x80, irqHoldoff := true } := by
  have returned : s.returnToPopped = .next { u with pc := pcAt s.cfg n } := by
    simp only [State.returnToPopped, popped, Res.andThen_next, jump_eq, device, value]
  refine ⟨returned, ?_⟩
  change s.interruptReturn = _
  rw [State.interruptReturn, returned, Res.andThen_next, State.setFlag, putFlag_i_true]

theorem returns_refused_of_popRet {f : Refusal} (refused : s.popRet = .refused f) :
    exec .ret s = .refused f ∧ exec .reti s = .refused f := by
  have returned : s.returnToPopped = .refused f := by rw [State.returnToPopped, refused, Res.andThen_refused]
  refine ⟨returned, ?_⟩
  change s.interruptReturn = _
  rw [State.interruptReturn, returned, Res.andThen_refused]

/-- On a stack in SRAM the popped address is made of the bytes above SP, the first the most significant. -/
theorem popRet_bytesAbove (above : s.bytesAbove (retBytes s.cfg)) : ∃ a : BitVec 24,
    a.toNat = (if retBytes s.cfg = 3 then
        (s.sramAt (s.sp.toNat + 1)).toNat * 65536 + (s.sramAt (s.sp.toNat + 2)).toNat * 256 +
          (s.sramAt (s.sp.toNat + 3)).toNat
      else (s.sramAt (s.sp.toNat + 1)).toNat * 256 + (s.sramAt (s.sp.toNat + 2)).toNat) ∧
    s.popRet = .next (a, { s with sp := BitVec.ofNat 16 (s.sp.toNat + retBytes s.cfg) }) := by
  have first : s.pop8 = .next (s.sramAt (s.sp.toNat + 1), { s with sp := BitVec.ofNat 16 (s.sp.toNat + 1) }) :=
    pop8_sram (bytesAbove_of_le above (by rcases retBytes_cases s.cfg with size | size <;> omega))
  rcases retBytes_cases s.cfg with size | size
  · rw [size] at above ⊢
    exact popRet_two size first (pop8_above (k := 1) above)
  · rw [size] at above ⊢
    exact popRet_three size first (pop8_above (k := 1) (bytesAbove_of_le above (by decide)))
      (pop8_above (k := 2) above)

/-- Settles O22: `Popped` follows the stack slot by slot, and RET and RETI go where `popRet` does. -/
theorem returnsPopAddress : Obligations.ReturnsPopAddress := by
  intro s slot pops returns stops
  have pop1 := (Popped.none s).pop8_mapped
  refine ⟨fun size here1 here2 => ?_, fun size here1 here2 here3 => ?_, fun off => ?_, fun here1 off => ?_,
    fun size here1 here2 off => ?_, fun above => ?_⟩
  · obtain ⟨v1, t1, read1, first, popped1⟩ := pop1 here1
    obtain ⟨v2, t2, read2, second, popped2⟩ := popped1.pop8_mapped here2
    obtain ⟨a, value, popped⟩ := popRet_two size first second
    exact ⟨v1, v2, t1, t2, read1, read2, returns_of_popRet popped value popped2.device⟩
  · obtain ⟨v1, t1, read1, first, popped1⟩ := pop1 here1
    obtain ⟨v2, t2, read2, second, popped2⟩ := popped1.pop8_mapped here2
    obtain ⟨v3, t3, read3, third, popped3⟩ := popped2.pop8_mapped here3
    obtain ⟨a, value, popped⟩ := popRet_three size first second third
    exact ⟨v1, v2, v3, t1, t2, t3, read1, read2, read3, returns_of_popRet popped value popped3.device⟩
  · exact returns_refused_of_popRet (popRet_refused_first ((Popped.none s).pop8_unmapped off))
  · obtain ⟨v1, t1, -, first, popped1⟩ := pop1 here1
    exact returns_refused_of_popRet (popRet_refused_second first (popped1.pop8_unmapped off))
  · obtain ⟨v1, t1, -, first, popped1⟩ := pop1 here1
    obtain ⟨v2, t2, -, second, popped2⟩ := popped1.pop8_mapped here2
    exact returns_refused_of_popRet (popRet_refused_third size first second (popped2.pop8_unmapped off))
  · obtain ⟨a, value, popped⟩ := popRet_bytesAbove above
    exact returns_of_popRet popped value rfl

/-! ### The interrupt entry off the map -/

/-- A push of several bytes stops at the first that has no place, where SP stands after those before it. -/
theorem pushBytes_stops {l : List Byte} (pushed : pushBytes l s = .next t) (off : ¬t.mapped t.sp.toNat) (v : Byte)
    (rest : List Byte) : pushBytes (l ++ v :: rest) s = .refused (.unmappedData t.sp.toNat) := by
  induction l generalizing s with
  | nil =>
    obtain rfl : s = t := Host.Outcome.next.inj pushed
    rw [List.nil_append, pushBytes, push8_unmapped off, Res.andThen_refused]
  | cons w l ih =>
    obtain ⟨u, first, others⟩ := Res.andThen_eq_next.mp pushed
    rw [List.cons_append, pushBytes, first, Res.andThen_next, ih others]

/-- The first `j` bytes of a return address as numbers. -/
theorem returnBytes_take {c : Config} {j : Nat} (inside : j ≤ retBytes c) (a : PAddr) :
    (returnBytes c a).take j = (List.range j).map fun i => BitVec.ofNat 8 (a.toNat / 256 ^ i) := by
  rw [returnBytes, ← List.map_take, List.take_range, min_eq_left inside]
  refine List.map_congr_left fun i _ => BitVec.eq_of_toNat_eq ?_
  rw [shiftByte_toNat, BitVec.toNat_ofNat]

/-- The push of a return address is refused where its first `j` bytes are pushed and the next has no place. -/
theorem pushRet_stops {a : PAddr} {j : Nat} (inside : j < retBytes s.cfg)
    (pushed : pushBytes ((List.range j).map fun i => BitVec.ofNat 8 (a.toNat / 256 ^ i)) s = .next t)
    (off : ¬t.mapped t.sp.toNat) : s.pushRet a = .refused (.unmappedData t.sp.toNat) := by
  rw [← returnBytes_take inside.le] at pushed
  have more : j < (returnBytes s.cfg a).length := by rwa [returnBytes_length]
  rw [pushRet_eq, ← List.take_append_drop j (returnBytes s.cfg a), List.drop_eq_getElem_cons more]
  exact pushBytes_stops pushed off _ _

/-- R327: where the push of pc is refused, so is the entry. -/
theorem interruptEntry_refused {n : Nat} {f : Refusal}
    (h : State.pushRet { s with irqPending := s.irqPending.filter (· ≠ n), sleeping := false } s.pc = .refused f) :
    s.interruptEntry n = .refused f := by
  rw [State.interruptEntry, h, Res.andThen_refused]

/-- Settles O51: the step enters the handler, whose push of pc stops after no byte, one or two (`pushRet_stops`). -/
theorem interruptEntryOffMap : Obligations.InterruptEntryOffMap := by
  intro s n noReset accepted woken pushes stops
  have stopped (j : Nat) {t : State} (inside : j < retBytes s.cfg) (device : t.cfg = s.cfg)
      (pushed : pushBytes ((List.range j).map fun i => BitVec.ofNat 8 (s.pc.toNat / 256 ^ i)) woken = .next t) :
      stops t := fun off => (step_eq_entry noReset accepted).trans
    (interruptEntry_refused (pushRet_stops (s := woken) inside pushed ((mapped_congr device _).not.mpr off)))
  have two : 1 < retBytes s.cfg := by rcases retBytes_cases s.cfg with size | size <;> omega
  refine ⟨stopped 0 (by omega) rfl rfl, fun t first => ?_, fun t u first second size => ?_⟩
  · refine stopped 1 two (push8_beyond first).cfg ?_
    exact Res.andThen_eq_next.mpr ⟨t, first, rfl⟩
  · refine stopped 2 (by omega) ((push8_beyond first).trans (push8_beyond second)).cfg ?_
    exact Res.andThen_eq_next.mpr ⟨t, first, Res.andThen_eq_next.mpr ⟨u, second, rfl⟩⟩

end Sys2Proof.Machine
end

section
/-! What the data transfers refuse whatever the state: the forms that update a pointer their register is half of (R221),
and SPM (R255, R256, R321). -/

namespace Sys2Proof.Machine

variable {s : State}

/-! ### A register that is half of the pointer -/

/-- R21, R221: a pointer is its low register and the one above. -/
theorem offPointer_eq_false_iff {p : Ptr} {d : Reg} :
    offPointer p d = false ↔ d = Ptr.low p ∨ d = highOf (Ptr.low p) := by
  have low : (Ptr.low p).val = p.lowNumber := by cases p <;> rfl
  have high : (highOf (Ptr.low p)).val = p.lowNumber + 1 := by cases p <;> rfl
  rw [Fin.ext_iff, Fin.ext_iff, low, high, offPointer, Bool.and_eq_false_iff, decide_eq_false_iff_not,
    decide_eq_false_iff_not, not_not, not_not]

theorem offPointerOr_on {p : Ptr} {d : Reg} (on : offPointer p d = false) (i : Instr) (go : Res State) :
    s.offPointerOr p d i go = .refused (.undefinedOperands s.pc (firstWord i)) :=
  if_neg (Bool.eq_false_iff.mp on)

theorem firstWord_of_encode {i : Instr} {w : Word} (word : encode i = [w]) : firstWord i = w := by
  rw [firstWord, word]

/-- An instruction of one word that checks its operands is refused with that word. -/
theorem refused_of_offPointerOr {p : Ptr} {d : Reg} (on : offPointer p d = false) {i : Instr} {go : Res State} {w : Word}
    (word : encode i = [w]) (checks : exec i s = s.offPointerOr p d i go) :
    ∃ w, encode i = [w] ∧ exec i s = .refused (.undefinedOperands s.pc w) :=
  ⟨w, word, by rw [checks, offPointerOr_on on, firstWord_of_encode word]⟩

/-- Settles O33: each form that updates a pointer checks its register against that pointer before it does anything. -/
theorem overlapRefused : Obligations.OverlapRefused := by
  intro s p d half i form
  have on := offPointer_eq_false_iff.mpr half
  cases p with
  | x | y =>
    simp only [List.mem_cons, List.not_mem_nil, or_false] at form
    obtain rfl | rfl | rfl | rfl := form <;> exact refused_of_offPointerOr on rfl rfl
  | z =>
    simp only [List.mem_cons, List.not_mem_nil, or_false] at form
    obtain rfl | rfl | rfl | rfl | rfl | rfl := form <;> exact refused_of_offPointerOr on rfl rfl

/-! ### SPM -/

theorem exec_spm (s : State) : exec .spm s = .refused (.spmNotModelled s.pc) := rfl

theorem exec_spmZInc (s : State) : exec .spmZInc s = .refused (.spmNotModelled s.pc) := rfl

/-- Settles O38: neither form reads the state but for its address. -/
theorem spmRefused : Obligations.SpmRefused := fun s => ⟨exec_spm s, exec_spmZInc s⟩

end Sys2Proof.Machine
end

section
/-! Shifts, rotates and single bits (R270 to R275, R281, R282): the whole next state, the shifts as arithmetic on the
register's value. -/

namespace Sys2Proof.Machine

/-! ### The flags of a shift -/

/-- R270: V is N exclusive-or C, N and Z judge the result, H stays. -/
theorem putShift_eq (x r : Byte) (c : Bool) : putShift x r c = shiftSreg x (flagOf x .h) r.toNat c := by
  rw [putShift, putSVNZ_eq, putFlag_c_arithSreg, getLsbD_seven, decide_eq_zero]
  rfl

/-- R270: LSL and ROL write H as well, from bit 3 of the register before. -/
theorem putShiftLeft_eq (x a r : Byte) :
    putShiftLeft x a r = shiftSreg x (8 ≤ a.toNat % 16) r.toNat (128 ≤ a.toNat) := by
  rw [putShiftLeft, putShift_eq, shiftSreg, putFlag_h_arithSreg, getLsbD_three, getLsbD_seven]
  rfl

theorem getLsbD_zero (x : Byte) : x.getLsbD 0 = decide (x.toNat % 2 = 1) := by
  rw [getLsbD_eq_div, pow_zero, Nat.div_one]

theorem writeResult_putShift {n : Nat} {v : Byte} (value : v.toNat = n) (s : State) (d : Reg) :
    s.writeResult d v (putShift s.sreg v ((s.reg d).getLsbD 0)) = .next { s with
      regs := s.regs.set d (BitVec.ofNat 8 n) d.isLt
      sreg := shiftSreg s.sreg (s.flag .h) n ((s.reg d).toNat % 2 = 1), pc := s.nextPc 1 } := by
  rw [writeResult_eq, putShift_eq, getLsbD_zero, ← value, BitVec.ofNat_toNat, BitVec.setWidth_eq]
  rfl

theorem writeResult_putShiftLeft {n : Nat} {v : Byte} (value : v.toNat = n) (s : State) (d : Reg) :
    s.writeResult d v (putShiftLeft s.sreg (s.reg d) v) = .next { s with
      regs := s.regs.set d (BitVec.ofNat 8 n) d.isLt
      sreg := shiftSreg s.sreg (8 ≤ (s.reg d).toNat % 16) n (128 ≤ (s.reg d).toNat), pc := s.nextPc 1 } := by
  rw [writeResult_eq, putShiftLeft_eq, ← value, BitVec.ofNat_toNat, BitVec.setWidth_eq]

/-! ### The values shifted -/

theorem shiftLeft_toNat (a : Byte) : (a <<< 1).toNat = a.toNat * 2 % 256 := by
  rw [BitVec.toNat_shiftLeft, Nat.shiftLeft_eq]

theorem shiftRight_toNat (a : Byte) : (a >>> 1).toNat = a.toNat / 2 := by
  rw [BitVec.toNat_ushiftRight, Nat.shiftRight_eq_div_pow]

/-- A rotate left is the sum of the register, itself and the carry. -/
theorem rotateLeft_toNat (a : Byte) (c : Bool) :
    (a <<< 1 ||| (if c then (0x01 : Byte) else 0x00)).toNat = a.toNat * 2 % 256 + c.toNat := by
  have := c.toNat_le
  rw [← add8_self_r, add8_r, sumByte_toNat]
  omega

/-- Bit 7 alone, which ASR keeps and ROR fills. -/
theorem and_signBit (a : Byte) : a &&& (0x80 : Byte) = if a.getLsbD 7 then (0x80 : Byte) else 0x00 :=
  BitVec.and_twoPow a 7

/-- A bit put above a byte shifted right counts 128: the shift leaves its place free. -/
theorem topBit_or_half_toNat (a : Byte) (c : Bool) :
    ((if c then (0x80 : Byte) else 0x00) ||| a >>> 1).toNat = c.toNat * 128 + a.toNat / 2 := by
  have disjoint : (if c then (0x80 : Byte) else 0x00) &&& a >>> 1 = 0#8 := by
    cases c with
    | false => exact BitVec.zero_and
    | true =>
      have past : a.getLsbD (1 + 7) = false := BitVec.getLsbD_of_ge a 8 (Nat.le_refl 8)
      rw [if_pos rfl, BitVec.and_comm, and_signBit, BitVec.getLsbD_ushiftRight, past]
      rfl
  rw [← BitVec.add_eq_or_of_and_eq_zero _ _ disjoint, BitVec.toNat_add, shiftRight_toNat]
  have := a.isLt
  cases c <;> simp <;> omega

/-- ROR's carry, which the model chooses as a number before it is a byte. -/
theorem rotateRight_toNat (a : Byte) (c : Bool) :
    ((if c then 0x80 else 0x00) ||| a >>> 1).toNat = c.toNat * 128 + a.toNat / 2 := by
  cases c with
  | false => exact topBit_or_half_toNat a false
  | true => exact topBit_or_half_toNat a true

theorem signShift_toNat (a : Byte) : ((a &&& (0x80 : Byte)) ||| a >>> 1).toNat = a.toNat / 128 * 128 + a.toNat / 2 := by
  have := a.isLt
  rw [and_signBit, topBit_or_half_toNat, getLsbD_seven, toNat_decide]
  split <;> omega

/-- Settles O42: each of the five writes its value with the flags of R270. -/
theorem shiftResult : Obligations.ShiftResult := fun s d =>
  ⟨writeResult_putShiftLeft (shiftLeft_toNat _) s d,
    writeResult_putShiftLeft (rotateLeft_toNat (s.reg d) (s.flag .c)) s d,
    writeResult_putShift (shiftRight_toNat _) s d,
    writeResult_putShift (rotateRight_toNat (s.reg d) (s.flag .c)) s d,
    writeResult_putShift (signShift_toNat _) s d⟩

/-! ### BST and BLD -/

theorem putFlag_t (x : Byte) (b : Bool) : putFlag x .t b = if b then x ||| 0x40 else x &&& 0xBF := by
  cases b <;> rfl

/-- A numbered bit of a register is written as the flag of that number is in SREG. -/
theorem putBit_eq_putFlag (v : Byte) (b : BitVec 3) (x : Bool) : putBit v b x = putFlag v (flagNumber b) x := by
  rw [putBit, putFlag, flagNumber_bit]

theorem putBit_bits (v : Byte) (b : BitVec 3) (x : Bool) :
    (putBit v b x).getLsbD b.toNat = x ∧ ∀ m, m ≠ b.toNat → (putBit v b x).getLsbD m = v.getLsbD m := by
  rw [putBit_eq_putFlag, ← flagNumber_bit]
  exact putFlag_bits v (flagNumber b) x

/-- Settles O45: BST writes one flag, BLD one bit of a register. -/
theorem bitTransfer : Obligations.BitTransfer := by
  intro s d b
  refine ⟨?_, _, next_setReg_advance s d _, putBit_bits (s.reg d) b (s.flag .t)⟩
  rw [← putFlag_t]
  exact congrArg Host.Outcome.next (setFlag_advance s .t _)

end Sys2Proof.Machine
end

section
/-! The hold-off that starts where I is raised (R277, R289, R326, R329): no instruction leaves I newly set without
it. -/

namespace Sys2Proof.Machine

variable {s t u : State}

/-- From `s` to `t` no hold-off is lost, and I is not raised without one. -/
structure HoldsOff (s t : State) : Prop where
  kept : s.irqHoldoff = true → t.irqHoldoff = true
  raised : t.flag .i = true → s.flag .i = true ∨ t.irqHoldoff = true

theorem HoldsOff.trans (h : HoldsOff s t) (h' : HoldsOff t u) : HoldsOff s u where
  kept := h'.kept ∘ h.kept
  raised set := (h'.raised set).elim (fun mid => (h.raised mid).imp id h'.kept) .inr

/-- SREG may change where I and the hold-off do not. -/
theorem HoldsOff.ofFlag (flag : flagOf t.sreg .i = flagOf s.sreg .i) (holdoff : t.irqHoldoff = s.irqHoldoff) :
    HoldsOff s t where
  kept := holdoff.trans
  raised set := .inl (flag.symm.trans set)

theorem HoldsOff.same (sreg : t.sreg = s.sreg) (holdoff : t.irqHoldoff = s.irqHoldoff) : HoldsOff s t :=
  .ofFlag (congrArg (flagOf · .i) sreg) holdoff

theorem HoldsOff.refl (s : State) : HoldsOff s s := .same rfl rfl

theorem HoldsOff.ofClear (clear : t.flag .i = false) (holdoff : t.irqHoldoff = s.irqHoldoff) : HoldsOff s t where
  kept := holdoff.trans
  raised set := absurd set (by simp [clear])

theorem HoldsOff.ofHoldoff (holdoff : t.irqHoldoff = true) : HoldsOff s t where
  kept _ := holdoff
  raised _ := .inr holdoff

/-- The hold-off that R326 starts exactly where I goes from 0 to 1. -/
theorem HoldsOff.ofRise (holdoff : t.irqHoldoff = (s.irqHoldoff || (!s.flag .i && t.flag .i))) : HoldsOff s t where
  kept old := by rw [holdoff, old, Bool.true_or]
  raised set := by
    rw [holdoff, set]
    cases s.flag .i <;> simp

theorem HoldsOff.advance (h : HoldsOff s t) (n : Nat) : HoldsOff s (t.advance n) := h.trans (.same rfl rfl)

theorem HoldsOff.andThen (h : HoldsOff s t) {x : Res State} (hx : x.Gives (HoldsOff t)) : x.Gives (HoldsOff s) :=
  fun u e => h.trans (hx u e)

/-! ### I under the flag rules -/

theorem flagOf_arithSreg_i (x : Byte) (h v n z c : Bool) : flagOf (arithSreg x h v n z c) .i = flagOf x .i :=
  flagOf_sregOf_i ..

theorem flagOf_putAlu_i (x : Byte) (f : Alu) : flagOf (putAlu x f) .i = flagOf x .i := by
  rw [putAlu_eq, flagOf_arithSreg_i]

theorem flagOf_putLogic_i (x r : Byte) : flagOf (putLogic x r) .i = flagOf x .i := by
  rw [putLogic_eq, logicSreg, flagOf_arithSreg_i]

theorem flagOf_putShift_i (x r : Byte) (c : Bool) : flagOf (putShift x r c) .i = flagOf x .i := by
  rw [putShift_eq, shiftSreg, flagOf_arithSreg_i]

theorem flagOf_putShiftLeft_i (x a r : Byte) : flagOf (putShiftLeft x a r) .i = flagOf x .i := by
  rw [putShiftLeft_eq, shiftSreg, flagOf_arithSreg_i]

theorem flagOf_putCom_i (x r : Byte) : flagOf (putCom x r) .i = flagOf x .i := by
  rw [putCom_eq, flagOf_arithSreg_i]

theorem flagOf_putStep_i (x : Byte) (v : Bool) (r : Byte) : flagOf (putStep x v r) .i = flagOf x .i := by
  rw [putStep_eq, flagOf_arithSreg_i]

theorem flagOf_putAdiw_i (x : Byte) (a r : Word) : flagOf (putAdiw x a r) .i = flagOf x .i := by
  rw [putAdiw, putWord_eq, wordSreg, flagOf_arithSreg_i]

theorem flagOf_putSbiw_i (x : Byte) (a r : Word) : flagOf (putSbiw x a r) .i = flagOf x .i := by
  rw [putSbiw, putWord_eq, wordSreg, flagOf_arithSreg_i]

theorem flagOf_putMul_i (x : Byte) (p r : Word) : flagOf (putMul x p r) .i = flagOf x .i := by
  rw [putMul_eq, productSreg, flagOf_sregOf_i]

/-! ### Single updates -/

theorem setFlag_holdsOff (s : State) {f : Flag} (other : f ≠ .i) (b : Bool) : HoldsOff s (s.setFlag f b) :=
  .ofFlag (flagOf_putFlag_other s.sreg other.symm b) rfl

theorem setFlag_false_holdsOff (s : State) (f : Flag) : HoldsOff s (s.setFlag f false) := by
  by_cases i : f = .i
  · subst i
    exact .ofClear (flagOf_putFlag_same s.sreg .i false) rfl
  · exact setFlag_holdsOff s i false

theorem raiseFlag_holdsOff (s : State) (f : Flag) : HoldsOff s (s.raiseFlag f) := by
  by_cases i : f = .i
  · subst i
    refine .ofRise ?_
    simp [State.flag, State.raiseFlag]
  · rw [raiseFlag_eq_setFlag s i]
    exact setFlag_holdsOff s i true

theorem setPtrAddr_holdsOff (s : State) (p : Ptr) (n : Nat) : HoldsOff s (s.setPtrAddr p n) := by
  have only := setPtrAddr_only s p n
  exact .same (congrArg State.sreg only :) (congrArg State.irqHoldoff only :)

theorem setBlock_holdsOff (s : State) (v : BitVec 128) : HoldsOff s (s.setBlock v) :=
  .same (setBlock_sreg s v) (setBlock_irqHoldoff s v)

/-- SREG written as a byte starts the hold-off where that raises I (R34, R326). -/
theorem writeCpu_holdsOff (s : State) (r : CpuReg) (v : Byte) : HoldsOff s (s.writeCpu r v) := by
  cases r with
  | sreg => exact .ofRise rfl
  | rampd | rampx | rampy | rampz | eind | spl | sph => exact .same rfl rfl

theorem ioWrite_holdsOff (s : State) (a : Nat) (v : Byte) : HoldsOff s (s.ioWrite a v) := by
  unfold State.ioWrite
  split
  · exact writeCpu_holdsOff s _ v
  · exact .same rfl rfl

theorem OnlyEnvRead.holdsOff (h : OnlyEnvRead s t) : HoldsOff s t := by
  rw [h]
  exact .same rfl rfl

theorem ioBitWrite_holdsOff (s : State) (a : Nat) (b : BitVec 3) (x : Bool) : HoldsOff s (s.ioBitWrite a b x) := by
  unfold State.ioBitWrite
  split
  · exact (envRead_only s _).holdsOff.trans (.same rfl rfl)
  · exact .same rfl rfl

/-! ### Data space and stack -/

theorem memWrite_holdsOff (s : State) (a : Nat) (v : Byte) : (s.memWrite a v).Gives (HoldsOff s) := by
  intro t e
  rcases memWrite_cases e with ⟨d, -, rfl⟩ | ⟨_, r, -, -, rfl⟩ | ⟨l, rfl⟩ | ⟨-, rfl⟩
  · exact .same rfl rfl
  · exact writeCpu_holdsOff s r v
  · exact .same rfl rfl
  · exact .same rfl rfl

theorem push8_holdsOff (s : State) (v : Byte) : (s.push8 v).Gives (HoldsOff s) :=
  (memWrite_holdsOff s _ v).andThen fun _ h => .next (h.trans (.same rfl rfl))

/-- A later byte of the address may clear the I that an earlier one raised, but not the hold-off. -/
theorem pushRet_holdsOff (s : State) (a : PAddr) : (s.pushRet a).Gives (HoldsOff s) :=
  (push8_holdsOff s _).andThen fun _ h1 => (h1.andThen (push8_holdsOff _ _)).andThen fun _ h2 =>
    .ite (fun _ => h2.andThen (push8_holdsOff _ _)) fun _ => .next h2

theorem callTo_holdsOff (s : State) (words : Nat) (target : Int) : (s.callTo words target).Gives (HoldsOff s) :=
  (pushRet_holdsOff s _).andThen fun _ h => .next (h.trans (.same rfl rfl))

theorem pop8_holdsOff (s : State) : s.pop8.Gives fun x => HoldsOff s x.2 :=
  fun _ e => HoldsOff.trans (t := s.setSp _) (.same rfl rfl) (memRead_only e).holdsOff

theorem popRet_holdsOff (s : State) : s.popRet.Gives fun x => HoldsOff s x.2 := by
  have high : s.popHigh.Gives fun x => HoldsOff s x.2 := .ite (fun _ => pop8_holdsOff s) fun _ => .next (.refl s)
  exact high.andThen fun _ h1 => (pop8_holdsOff _).andThen fun _ h2 => (pop8_holdsOff _).andThen fun _ h3 =>
    .next ((h1.trans h2).trans h3)

theorem returnToPopped_holdsOff (s : State) : s.returnToPopped.Gives (HoldsOff s) :=
  (popRet_holdsOff s).andThen fun _ h => .next (h.trans (.same rfl rfl))

/-- RETI starts the hold-off whatever I was (R329). -/
theorem interruptReturn_holdsOff (s : State) : s.interruptReturn.Gives (HoldsOff s) :=
  (returnToPopped_holdsOff s).andThen fun _ _ => .next (.ofHoldoff rfl)

/-! ### The ends of an instruction -/

theorem writeResult_holdsOff (s : State) (d : Reg) (v : Byte) {x : Byte} (flag : flagOf x .i = flagOf s.sreg .i) :
    (s.writeResult d v x).Gives (HoldsOff s) :=
  .next (.ofFlag flag rfl)

theorem writeAlu_holdsOff (s : State) (d : Reg) (f : Alu) : (s.writeAlu d f).Gives (HoldsOff s) :=
  writeResult_holdsOff s d _ (flagOf_putAlu_i _ _)

theorem writeLogic_holdsOff (s : State) (d : Reg) (v : Byte) : (s.writeLogic d v).Gives (HoldsOff s) :=
  writeResult_holdsOff s d v (flagOf_putLogic_i _ _)

theorem writePair_holdsOff (s : State) (d : Reg) (v : Word) {x : Byte} (flag : flagOf x .i = flagOf s.sreg .i) :
    (s.writePair d v x).Gives (HoldsOff s) :=
  .next (.ofFlag flag rfl)

theorem writeProduct_holdsOff (s : State) (p r : Word) : (s.writeProduct p r).Gives (HoldsOff s) :=
  writePair_holdsOff s 0 r (flagOf_putMul_i _ _ _)

theorem compare_holdsOff (s : State) (f : Alu) : (s.compare f).Gives (HoldsOff s) :=
  .next (.ofFlag (flagOf_putAlu_i _ _) rfl)

theorem skip_holdsOff (s : State) (cond : Bool) : (s.skip cond).Gives (HoldsOff s) := by
  intro t e
  rw [skip_next e]
  exact .same rfl rfl

theorem branchIf_holdsOff (s : State) (cond : Bool) (k : BitVec 7) : (s.branchIf cond k).Gives (HoldsOff s) := by
  rw [branchIf_eq]
  exact .next (.same rfl rfl)

/-! ### Loads and stores -/

/-- A load's frame holds SREG and the hold-off. -/
theorem KeepsOthers.holdsOff {regs ptrs : List Reg} (h : KeepsOthers regs ptrs s t) : HoldsOff s t :=
  .same h.sreg h.irqHoldoff

theorem loadFrom_holdsOff (s : State) (d : Reg) (a words : Nat) : (s.loadFrom d a words).Gives (HoldsOff s) :=
  fun t e => (loadFrom_keepsOthers (ptrs := []) s d a words t e).holdsOff

theorem loadInc_holdsOff (s : State) (p : Ptr) (d : Reg) : (s.loadInc p d).Gives (HoldsOff s) :=
  fun t e => (loadInc_keepsOthers s p d t e).holdsOff

theorem loadDec_holdsOff (s : State) (p : Ptr) (d : Reg) : (s.loadDec p d).Gives (HoldsOff s) :=
  fun t e => (loadDec_keepsOthers s p d t e).holdsOff

theorem storeTo_holdsOff (s : State) (a : Nat) (v : Byte) (words : Nat) : (s.storeTo a v words).Gives (HoldsOff s) :=
  (memWrite_holdsOff s a v).andThen fun _ h => .next (h.advance words)

theorem storeInc_holdsOff (s : State) (p : Ptr) (r : Reg) : (s.storeInc p r).Gives (HoldsOff s) :=
  (memWrite_holdsOff s _ _).andThen fun _ h => .next ((h.trans (setPtrAddr_holdsOff _ p _)).advance 1)

theorem storeDec_holdsOff (s : State) (p : Ptr) (r : Reg) : (s.storeDec p r).Gives (HoldsOff s) :=
  (setPtrAddr_holdsOff s p _).andThen (storeTo_holdsOff _ _ _ 1)

theorem loadProgram_holdsOff (s : State) (d : Reg) (b : Nat) : (s.loadProgram d b).Gives (HoldsOff s) :=
  progByte_andThen_gives fun _ => .next (.same rfl rfl)

/-! ### Instructions -/

/-- BSET, SEI, RETI and what writes the data or I/O space can raise I; every other instruction keeps I and the hold-off
or clears I. -/
theorem exec_holdsOff (i : Instr) (s : State) : Res.Gives (exec i s) (HoldsOff s) := by
  cases i with
  | add | adc | sub | subi | sbc | sbci | neg => exact writeAlu_holdsOff s _ _
  | and | andi | or | ori | eor | sbr | cbr => exact writeLogic_holdsOff s _ _
  | com => exact writeResult_holdsOff s _ _ (flagOf_putCom_i _ _)
  | inc | dec => exact writeResult_holdsOff s _ _ (flagOf_putStep_i _ _ _)
  | lsl | rol => exact writeResult_holdsOff s _ _ (flagOf_putShiftLeft_i _ _ _)
  | lsr | ror | asr => exact writeResult_holdsOff s _ _ (flagOf_putShift_i _ _ _)
  | adiw => exact writePair_holdsOff s _ _ (flagOf_putAdiw_i _ _ _)
  | sbiw => exact writePair_holdsOff s _ _ (flagOf_putSbiw_i _ _ _)
  | mul | muls | mulsu | fmul | fmuls | fmulsu => exact writeProduct_holdsOff s _ _
  | tst => exact .next (.ofFlag (flagOf_putLogic_i _ _) rfl)
  | clr d =>
    change Res.Gives (execClr d s) (HoldsOff s)
    rw [execClr_eq]
    exact writeLogic_holdsOff s d _
  | cp | cpc | cpi => exact compare_holdsOff s _
  | bset => exact .next ((raiseFlag_holdsOff s _).advance 1)
  | sei => exact .next ((raiseFlag_holdsOff s .i).advance 1)
  | bclr | clc | clz | cln | clv | cls | clh | clt | cli => exact .next ((setFlag_false_holdsOff s _).advance 1)
  | bst | sec | sez | sen | sev | ses | seh | set => exact .next ((setFlag_holdsOff s (by decide) _).advance 1)
  | des => exact .next ((setBlock_holdsOff s _).advance 1)
  | ser | mov | movw | ldi | swap | bld | nop | wdr | sleep | rjmp | ijmp | eijmp | jmp => exact .next (.same rfl rfl)
  | brk => exact .ite (fun _ => .fault _) fun _ => .next (.same rfl rfl)
  | rcall | icall | eicall | call => exact callTo_holdsOff s _ _
  | ret => exact returnToPopped_holdsOff s
  | reti => exact interruptReturn_holdsOff s
  | cpse | sbrc | sbrs => exact skip_holdsOff s _
  | sbic | sbis => exact (ioRead_only s _).holdsOff.andThen (skip_holdsOff _ _)
  | brbs | brbc | breq | brne | brcs | brcc | brsh | brlo | brmi | brpl | brge | brlt | brhs | brhc | brts | brtc
  | brvs | brvc | brie | brid => exact branchIf_holdsOff s _ _
  | lds | ldX | ldY | ldZ | lddY | lddZ => exact loadFrom_holdsOff s _ _ _
  | ldXInc | ldYInc | ldZInc => exact offPointerOr_gives (loadInc_holdsOff s _ _)
  | ldXDec | ldYDec | ldZDec => exact offPointerOr_gives (loadDec_holdsOff s _ _)
  | sts | stX | stY | stZ | stdY | stdZ => exact storeTo_holdsOff s _ _ _
  | stXInc | stYInc | stZInc => exact offPointerOr_gives (storeInc_holdsOff s _ _)
  | stXDec | stYDec | stZDec => exact offPointerOr_gives (storeDec_holdsOff s _ _)
  | lpmR0 | lpmZ | elpmR0 | elpmZ => exact loadProgram_holdsOff s _ _
  | lpmZInc | elpmZInc => exact offPointerOr_gives (progByte_andThen_gives fun _ => .next (.same rfl rfl))
  | spm | spmZInc => exact .refused _
  | in_ => exact .next ((ioRead_only s _).holdsOff.trans (.same rfl rfl))
  | out => exact .next ((ioWrite_holdsOff s _ _).advance 1)
  | sbi | cbi => exact .next ((ioBitWrite_holdsOff s _ _ _).advance 1)
  | push => exact (push8_holdsOff s _).andThen fun _ h => .next (h.advance 1)
  | pop => exact (pop8_holdsOff s).andThen fun _ h => .next (h.trans (.same rfl rfl))

/-- Settles O52: I was clear, so `exec_holdsOff` leaves only the hold-off. -/
theorem raisingIHoldsOff : Obligations.RaisingIHoldsOff := by
  intro i s t done clear set
  exact ((exec_holdsOff i s t done).raised set).resolve_left (by simp [clear])

end Sys2Proof.Machine
end

section
/-! MCU control (R310 to R313) and the sleeping core at a boundary (R312, R321, R325, R340). -/

namespace Sys2Proof.Machine

variable {s : State}

/-! ### The four instructions -/

theorem execNop_eq (s : State) : execNop s = .next { s with pc := s.nextPc 1 } := by
  rw [execNop, advance_eq]

theorem execSleep_eq (s : State) : execSleep s = .next { s with sleeping := true, pc := s.nextPc 1 } := by
  rw [execSleep, advance_eq]

/-- The output event is recorded before pc moves, and pc moves as from the state before it. -/
theorem execWdr_eq (s : State) :
    execWdr s = .next { s with envTrace := .watchdogReset :: s.envTrace, pc := s.nextPc 1 } := by
  rw [execWdr, advance_eq]
  rfl

theorem execBrk_stops (ends : s.cfg.breakEndsRun = true) : execBrk s = .fault (.breakReached s.pc) :=
  if_pos ends

theorem execBrk_advances (goesOn : s.cfg.breakEndsRun = false) : execBrk s = .next { s with pc := s.nextPc 1 } := by
  rw [execBrk, goesOn, if_neg Bool.false_ne_true, advance_eq]

/-- Settles O46: each instruction by its own equation, BREAK by the device's reading of R310. -/
theorem mcuControlResult : Obligations.McuControlResult := fun s =>
  ⟨execNop_eq s, execSleep_eq s, execWdr_eq s, execBrk_stops, execBrk_advances⟩

/-! ### The sleeping core -/

/-- Asleep for ever: the environment has nothing more to do, and what is pending, if anything, is masked (R312). -/
theorem asleepForever_iff : s.asleepForever = true ↔
    s.sleeping = true ∧ s.envTicks = [] ∧ (s.flag .i = false ∨ s.irqPending = []) := by
  unfold State.asleepForever
  rw [Bool.and_eq_true, Bool.and_eq_true, Bool.not_eq_true', Bool.and_eq_false_iff, Bool.not_eq_false',
    List.isEmpty_iff, List.isEmpty_iff, and_assoc]

/-- R321: the end of the run comes before everything else of the step. -/
theorem step_eq_asleep (h : s.asleepForever = true) : step s = .fault .asleep :=
  if_pos h

/-- A sleeping core runs no instruction (R312). -/
theorem runInstruction_asleep (asleep : s.sleeping = true) : s.runInstruction = .next s :=
  if_pos asleep

/-- R325: a core that sleeps on takes the environment's inputs and ends the hold-off. -/
theorem step_eq_sleepsOn (asleep : s.sleeping = true) (mayWake : ¬s.asleepForever = true)
    (noReset : s.tick.resetRequest = false) (noIrq : s.pollEnv.accepted = none) :
    step s = .next { s.pollEnv with irqHoldoff := false } := by
  rw [step, if_neg mayWake, noReset, if_neg Bool.false_ne_true, noIrq]
  exact runInstruction_asleep (s := { s.pollEnv with irqHoldoff := false }) asleep

/-- Settles O54: the two cases are `asleepForever` and its negation, as `asleepForever_iff` says it of a sleeping
core. -/
theorem sleepingCore : Obligations.SleepingCore := by
  intro s asleep
  refine ⟨fun quiet masked => ?_, fun goesOn noReset noIrq => ?_⟩
  · exact step_eq_asleep (asleepForever_iff.mpr ⟨asleep, quiet, masked⟩)
  · have mayWake : ¬s.asleepForever = true := fun ended => goesOn (asleepForever_iff.mp ended).2
    exact step_eq_sleepsOn asleep mayWake noReset noIrq

end Sys2Proof.Machine
end

section
/-! Which request a boundary accepts, and that none is while the hold-off is set (R323, R325, R326, R328). -/

namespace Sys2Proof.Machine

variable {s : State} {n : Nat}

/-! ### The lowest pending request -/

/-- R328: the first of a strictly rising list is its lowest member, and no other member is. -/
theorem head?_eq_some_iff_lowest {l : List Nat} (rising : l.Pairwise (· < ·)) :
    l.head? = some n ↔ n ∈ l ∧ ∀ m ∈ l, n ≤ m := by
  cases l with
  | nil => simp
  | cons k rest =>
    obtain ⟨above, -⟩ := List.pairwise_cons.mp rising
    have lowest : ∀ m ∈ k :: rest, k ≤ m := List.forall_mem_cons.mpr ⟨le_rfl, fun m hm => (above m hm).le⟩
    rw [List.head?_cons, Option.some_inj]
    constructor
    · rintro rfl
      exact ⟨List.mem_cons_self, lowest⟩
    · rintro ⟨listed, below⟩
      exact le_antisymm (lowest n listed) (below k List.mem_cons_self)

/-- R325: acceptance asks for I, for no hold-off and for a pending request, and takes the first of the list. -/
theorem accepted_eq_some_iff :
    s.accepted = some n ↔ s.flag .i = true ∧ s.irqHoldoff = false ∧ s.irqPending.head? = some n := by
  rw [State.accepted, Option.ite_none_right_eq_some, Bool.and_eq_true, Bool.not_eq_true', and_assoc]

/-- Settles O49: the environment's inputs leave I and the hold-off alone, the requests they leave rise strictly
(`pollEnv_irqPending_rising`), and `mem_pollEnv_irqPending` says which those are. -/
theorem lowestRequestAccepted : Obligations.LowestRequestAccepted := by
  intro s n pending
  have listed (m : Nat) : m ∈ s.pollEnv.irqPending ↔ pending m := mem_pollEnv_irqPending
  have first : s.pollEnv.irqPending.head? = some n ↔ pending n ∧ ∀ m, pending m → n ≤ m := by
    simp only [head?_eq_some_iff_lowest (pollEnv_irqPending_rising s), listed]
  rw [accepted_eq_some_iff, first]
  rfl

/-! ### The hold-off -/

/-- R326: while the hold-off is set no request is accepted. -/
theorem accepted_of_holdoff (held : s.irqHoldoff = true) : s.accepted = none := by
  simp [State.accepted, held]

/-- The fetch reads program memory, pc and the device, which the environment's inputs and the hold-off leave alone. -/
theorem fetch_pollEnv (s : State) : State.fetch { s.pollEnv with irqHoldoff := false } = s.fetch := rfl

/-- Settles O53: with no request accepted the step is `step_eq_fetch`. -/
theorem holdOffDelaysInterrupt : Obligations.HoldOffDelaysInterrupt := by
  intro s held noReset awake
  have noIrq : s.pollEnv.accepted = none := accepted_of_holdoff held
  rw [step_eq_fetch awake noReset noIrq, fetch_pollEnv]

end Sys2Proof.Machine
end
